-- ==== Sys2Proof/Word.lean ====
section
/-! DEFINITION. The word types of the block: bytes, 32-bit counts, and the words of its two request ports. -/

namespace Sys2Proof

/-- A byte: every stored datum of the block is one byte (`20_memory.md` rule R54). -/
abbrev Byte := BitVec 8

/-- A 32-bit count: `TICKS`, `TCMP`, `imm` and `RESP` (`10_state.md` rules R30, R31, R36). -/
abbrev Count := BitVec 32

/-- A format C word, 64 bits (`30_encoding.md` rule R71). -/
abbrev CommandWord := BitVec 64

/-- A format T word, 80 bits (`30_encoding.md` rule R72). -/
abbrev TransportWord := BitVec 80

/-- One word on one of the block's two request ports (`30_encoding.md` rule R70). -/
inductive PortWord where
  /-- A format C word on the command port. -/
  | command (c : CommandWord)
  /-- A format T word on the transport port. -/
  | transport (t : TransportWord)
deriving DecidableEq, Repr

end Sys2Proof
end

