-- ==== Sys2Proof/Config.lean ====
section
/-! DEFINITION. The implementation parameters of `00_scope.md` rule R4: the fixed numbers, and the open parameters as
one record of plain data, constant for the life of a run (`10_state.md` rule R38). -/

namespace Sys2Proof

/-- `N`, the number of digit positions. -/
abbrev numDigits : Nat := 8

/-- `PERIOD = N + 4`, the ticks of one refresh cycle; the largest cursor value is one less. -/
abbrev period : Nat := 12

/-- `NBTN`, the number of debounced inputs. -/
abbrev numButtons : Nat := 5

/-- `DB_THRESH`, the consecutive differing samples that flip a debounced state. -/
abbrev debounceThreshold : Nat := 10

/-- `SB_SIZE`, the ScratchBuffer's capacity in bytes. -/
abbrev scratchSize : Nat := 255

/-- `CHUNK`, the largest transport chunk in bytes and the offset stride per chunk. -/
abbrev chunkSize : Nat := 8

/-- `LOAD_MODE`: how the consumer reads the ScratchBuffer (`42_scratchpad_bridge.md` rule R135). -/
inductive LoadMode where
  /-- Eight raw pattern bytes. -/
  | raw
  /-- Four bytes of two hex nibbles each. -/
  | packedHex
deriving DecidableEq, Repr

/-- `DB_MODE` of `93_implementation_defined.md` U3: what the debounce counter does on a sample that equals the stable
state. -/
inductive DebounceMode where
  /-- It returns to 0: the reading of rule R152. -/
  | returnToZero
  /-- It counts down by one, not below 0: the other reading U3 admits. -/
  | countDown
deriving DecidableEq, Repr

/-- The open parameters, gathered in `92_eei_decisions.md` ("Open parameters, gathered"), with `DB_MODE` of U3. -/
structure Config where
  /-- `HEXTAB[0..15]`, the hex-to-segments lookup table. -/
  hextab : Vector Byte 16
  /-- `DP_BIT`, the decimal-point bit of a segment pattern. -/
  dpBit : Byte
  /-- `SEGMAP`, logical pattern bit to physical segment line; a permutation of 0..7. -/
  segmap : Vector (Fin 8) 8
  /-- `SEG_POL`: the physical level of an asserted segment line (true = high). -/
  segPol : Bool
  /-- `DSEL_POL`: the physical level of an asserted digit-select output (true = high). -/
  dselPol : Bool
  /-- `LOAD_MODE`. -/
  loadMode : LoadMode
  /-- `HAS_SCAN`: the build contains the scan engine. -/
  hasScan : Bool
  /-- `HAS_DEBOUNCE`: the build contains the button sampler. -/
  hasDebounce : Bool
  /-- `TICK_INTERVAL`, the constant added to the timer compare value at each firing. -/
  tickInterval : Count
  /-- `GETEDGE_ATOMIC`: `GETEDGE` reads and clears in one step. -/
  getedgeAtomic : Bool
  /-- `DB_MODE` (`93_implementation_defined.md` U3). -/
  debounceMode : DebounceMode
deriving DecidableEq, Repr

/-- `SEGMAP` is a permutation of {0..7} (`00_scope.md` rule R4, `41_scan_engine.md` rule R108): eight entries below 8
with no repeats. -/
def Config.wf (cfg : Config) : Bool := decide cfg.segmap.toList.Nodup

/-- The defaults the spec supplies (`00_scope.md` rule R4, `41_scan_engine.md` rule R101) and, for the parameters it
leaves OPEN without a default, values the model names. DESIGN CHOICE, unsafe for a statement that uses them: log
entry 2. -/
def Config.default : Config where
  hextab := #v[0x3F, 0x06, 0x5B, 0x4F, 0x66, 0x6D, 0x7D, 0x07, 0x7F, 0x6F, 0x77, 0x7C, 0x39, 0x5E, 0x79, 0x71]
  dpBit := 0x80
  segmap := #v[0, 1, 2, 3, 4, 5, 6, 7]
  segPol := true
  dselPol := true
  loadMode := .raw
  hasScan := true
  hasDebounce := true
  tickInterval := 1
  getedgeAtomic := true
  debounceMode := .returnToZero

end Sys2Proof
end

