-- ==== Sys2Proof/Syntax.lean ====
section
/-! DEFINITION. The command set SDB-C v1: one constructor per row of `spec/opcode_table.json`, in the table's order. -/

namespace Sys2Proof

/-- A command of format C or an event of format T, with the operand fields it uses
(`30_encoding.md` rules R75, R76). -/
inductive Instr where
  /-- `NOP` (`44_tick_helpers.md` rule R170). -/
  | nop
  /-- `SETHEX idx, val` (`41_scan_engine.md` rule R103). -/
  | sethex (idx val : Byte)
  /-- `SETRAW idx, val` (`41_scan_engine.md` rule R104). -/
  | setraw (idx val : Byte)
  /-- `SETBRIGHT idx` (`41_scan_engine.md` rule R112). -/
  | setbright (idx : Byte)
  /-- `GETLEVEL idx` (`43_debouncer.md` rule R155). -/
  | getlevel (idx : Byte)
  /-- `GETEDGE idx` (`43_debouncer.md` rules R156, R157). -/
  | getedge (idx : Byte)
  /-- `RDBTN` (`43_debouncer.md` rule R158). -/
  | rdbtn
  /-- `TICKGOAL imm` (`44_tick_helpers.md` rule R171). -/
  | tickgoal (imm : Count)
  /-- `TICKREACHED imm` (`44_tick_helpers.md` rule R172). -/
  | tickreached (imm : Count)
  /-- `LOAD` (`42_scratchpad_bridge.md` rules R135, R136). -/
  | load
  /-- `XSTART dir, len` (`42_scratchpad_bridge.md` rule R131); `dir` is informative only. -/
  | xstart (dir : Byte) (len : BitVec 16)
  /-- `XDATA b0 .. b(n-1)` (`42_scratchpad_bridge.md` rule R132); `n` is the length of the list. -/
  | xdata (bytes : List Byte)
  /-- `XGET` (`42_scratchpad_bridge.md` rule R134). -/
  | xget
deriving DecidableEq, Repr

end Sys2Proof
end

