-- ==== Sys2Proof/WellFormed.lean ====
section
/-! DEFINITION. Which terms of `Instr` a port word can carry. -/

namespace Sys2Proof

/-- An `XDATA` event carries at most 8 bytes (`30_encoding.md` rules R72, R77 (d)); every operand of every other row
is any value of its field (rule R73). -/
def Instr.wellFormed : Instr → Bool
  | .nop => true
  | .sethex _ _ => true
  | .setraw _ _ => true
  | .setbright _ => true
  | .getlevel _ => true
  | .getedge _ => true
  | .rdbtn => true
  | .tickgoal _ => true
  | .tickreached _ => true
  | .load => true
  | .xstart _ _ => true
  | .xdata bytes => decide (bytes.length ≤ chunkSize)
  | .xget => true

end Sys2Proof
end

