-- ==== Sys2Proof/Decode.lean ====
section
/-! DEFINITION. The decoder of the two ports, total on every word, the illegal words rejected by name; after it the
encoder, from the same tables of `30_encoding.md`. -/

namespace Sys2Proof

/-- Why a word is an illegal command, by its form (`30_encoding.md` rule R77 (a) to (d)). Case (e), a command of an
absent family, depends on the build and is answered by the command's meaning. -/
inductive Illegal where
  /-- (a) format C with `op` in `0x0A..0xFF`. -/
  | reservedOpcode (op : Byte)
  /-- (b) format C with `rsv` not zero. -/
  | reservedField (rsv : Byte)
  /-- (c) format T with `ev` outside `0x10`, `0x11`, `0x12`. -/
  | reservedEvent (ev : Byte)
  /-- (d) `XDATA` with `n` above 8. -/
  | chunkTooLong (n : Byte)
deriving DecidableEq, Repr

/-- What the decoder answers for a word. -/
inductive Decoded where
  /-- The word is this instruction. -/
  | instr (i : Instr)
  /-- The word is an illegal command, for this reason. -/
  | illegal (why : Illegal)
deriving DecidableEq, Repr

/-! ### The fields of format C (rule R71) and format T (rule R72) -/

/-- `op = c[63:56]`. -/
def commandOp (c : CommandWord) : Byte := c.extractLsb' 56 8

/-- `idx = c[55:48]`. -/
def commandIdx (c : CommandWord) : Byte := c.extractLsb' 48 8

/-- `val = c[47:40]`. -/
def commandVal (c : CommandWord) : Byte := c.extractLsb' 40 8

/-- `rsv = c[39:32]`. -/
def commandRsv (c : CommandWord) : Byte := c.extractLsb' 32 8

/-- `imm = c[31:0]`. -/
def commandImm (c : CommandWord) : Count := c.extractLsb' 0 32

/-- `ev = t[79:72]`. -/
def transportEv (t : TransportWord) : Byte := t.extractLsb' 72 8

/-- `n = t[71:64]`. -/
def transportN (t : TransportWord) : Byte := t.extractLsb' 64 8

/-- `payload = t[63:0]`. -/
def transportPayload (t : TransportWord) : BitVec 64 := t.extractLsb' 0 64

/-- Payload byte `j` is `payload[8j+7:8j]` (rule R72). -/
def payloadByte (p : BitVec 64) (j : Nat) : Byte := p.extractLsb' (8 * j) 8

/-- The first `n` payload bytes, byte 0 first. -/
def payloadBytes (p : BitVec 64) (n : Nat) : List Byte := (List.range n).map (payloadByte p)

/-- The requested length of `XSTART`, `payload[15:0]` (rule R72). -/
def payloadLength (p : BitVec 64) : BitVec 16 := p.extractLsb' 0 16

/-! ### The decoder -/

/-- The opcode map of format C (`30_encoding.md` rule R75): a row is selected by `op` alone, with `rsv = 0`; the
fields a row does not use are ignored (rule R73). -/
def decodeCommand (c : CommandWord) : Decoded :=
  if commandRsv c ≠ 0x00 then .illegal (.reservedField (commandRsv c))
  else if commandOp c = 0x00 then .instr .nop
  else if commandOp c = 0x01 then .instr (.sethex (commandIdx c) (commandVal c))
  else if commandOp c = 0x02 then .instr (.setraw (commandIdx c) (commandVal c))
  else if commandOp c = 0x03 then .instr (.setbright (commandIdx c))
  else if commandOp c = 0x04 then .instr (.getlevel (commandIdx c))
  else if commandOp c = 0x05 then .instr (.getedge (commandIdx c))
  else if commandOp c = 0x06 then .instr .rdbtn
  else if commandOp c = 0x07 then .instr (.tickgoal (commandImm c))
  else if commandOp c = 0x08 then .instr (.tickreached (commandImm c))
  else if commandOp c = 0x09 then .instr .load
  else .illegal (.reservedOpcode (commandOp c))

/-- The event codes of format T (`30_encoding.md` rule R76), with rule R77 (d). -/
def decodeTransport (t : TransportWord) : Decoded :=
  if transportEv t = 0x10 then .instr (.xstart (transportN t) (payloadLength (transportPayload t)))
  else if transportEv t = 0x11 then
    if (transportN t).toNat ≤ chunkSize then
      .instr (.xdata (payloadBytes (transportPayload t) (transportN t).toNat))
    else .illegal (.chunkTooLong (transportN t))
  else if transportEv t = 0x12 then .instr .xget
  else .illegal (.reservedEvent (transportEv t))

/-- The decoder, on either port. -/
def decode : PortWord → Decoded
  | .command c => decodeCommand c
  | .transport t => decodeTransport t

/-! ### The encoder -/

/-- A format C word from its fields, `rsv = 0` (rule R71). -/
def commandWord (op idx val : Byte) (imm : Count) : CommandWord := op ++ idx ++ val ++ (0x00 : Byte) ++ imm

/-- A format T word from its fields (rule R72). -/
def transportWord (ev n : Byte) (payload : BitVec 64) : TransportWord := ev ++ n ++ payload

/-- A payload holding the given bytes, byte 0 in bits 7:0, the rest zero. -/
def packBytes : List Byte → BitVec 64
  | [] => 0
  | b :: bs => (packBytes bs <<< 8) ||| b.setWidth 64

/-- The word of an instruction, every unused field zero (`30_encoding.md` rule R79). -/
def encode : Instr → PortWord
  | .nop => .command (commandWord 0x00 0 0 0)
  | .sethex idx val => .command (commandWord 0x01 idx val 0)
  | .setraw idx val => .command (commandWord 0x02 idx val 0)
  | .setbright idx => .command (commandWord 0x03 idx 0 0)
  | .getlevel idx => .command (commandWord 0x04 idx 0 0)
  | .getedge idx => .command (commandWord 0x05 idx 0 0)
  | .rdbtn => .command (commandWord 0x06 0 0 0)
  | .tickgoal imm => .command (commandWord 0x07 0 0 imm)
  | .tickreached imm => .command (commandWord 0x08 0 0 imm)
  | .load => .command (commandWord 0x09 0 0 0)
  | .xstart dir len => .transport (transportWord 0x10 dir (len.setWidth 64))
  | .xdata bytes => .transport (transportWord 0x11 (BitVec.ofNat 8 bytes.length) (packBytes bytes))
  | .xget => .transport (transportWord 0x12 0 0)

/-! ### Words as the opcode table numbers them -/

/-- The port word whose bits are `w`, bit 0 the least significant: a word of at most 64 bits goes to the command
port, one of 65 to 80 bits to the transport port (rule R70: every word on a port has that port's one length); no port
takes a longer word. -/
def tablePortWord (nbits w : Nat) : Option PortWord :=
  if nbits ≤ 64 then some (.command (BitVec.ofNat 64 w))
  else if nbits ≤ 80 then some (.transport (BitVec.ofNat 80 w))
  else none

/-- The instruction the decoder reads from a word numbered as `spec/opcode_table.json` numbers it. -/
def decodeTableWord (nbits w : Nat) : Option Instr :=
  match tablePortWord nbits w with
  | some p =>
    match decode p with
    | .instr i => some i
    | .illegal _ => none
  | none => none

end Sys2Proof
end

