-- ==== Sys2Proof/Machine/State.lean ====
section
/-! DEFINITION. The machine's state as plain data: every piece of state `10_state.md` names, the micro-step in progress,
the environment's queues, and the two observations of a step; and the state after reset. -/

namespace Sys2Proof.Machine

open Sys2Proof

/-- A ScratchBuffer as a list of (offset, byte) cells (`20_memory.md` rule R52). Its one canonical form is
`Memory.wf`. -/
abbrev Memory := List Host.Cell

/-- What an offset that is not listed reads as: the reset contents of `SB`, `0x00` (`10_state.md` rule R32). -/
def Memory.unlisted : Byte := 0x00

/-- Offsets rise strictly from above `bound`, are below the capacity, and no listed byte is the unlisted one. -/
def Memory.wfFrom : Nat → Memory → Bool
  | _, [] => true
  | bound, (a, b) :: m =>
    decide (bound ≤ a) && decide (a < scratchSize) && decide (b ≠ Memory.unlisted) && Memory.wfFrom (a + 1) m

/-- The canonical form: equal buffers are equal lists. -/
def Memory.wf (m : Memory) : Bool := Memory.wfFrom 0 m

/-- The output pins of the block and the external shift register they drive, as logical levels
(`10_state.md` rules R23, R24, R25). -/
structure Pins where
  /-- `PSEG[7:0]`, the segment lines. -/
  pseg : Byte
  /-- `SDATA`. -/
  sdata : Bool
  /-- `SCLK`. -/
  sclk : Bool
  /-- `SLATCH`. -/
  slatch : Bool
  /-- `SR[7:0]`, the shift stage of the external register. -/
  sr : Byte
  /-- `DSEL[7:0]`, its latched outputs: bit `i` selects digit position `i`. -/
  dsel : Byte
deriving DecidableEq, Repr

/-- A pin event (`41_scan_engine.md` rule R105). -/
inductive PinEvent where
  /-- `SEG(v)`: `PSEG <- v`. -/
  | seg (v : Byte)
  /-- `DATA(b)`: `SDATA <- b`. -/
  | data (b : Bool)
  /-- `CLK(b)`: `SCLK <- b`. -/
  | clk (b : Bool)
  /-- `LAT(b)`: `SLATCH <- b`. -/
  | lat (b : Bool)
deriving DecidableEq, Repr

/-- The DebounceState of one input (`10_state.md` rules R26, R27, R28). -/
structure DebounceState where
  /-- `STATE[i]`: true means debounced-pressed. -/
  state : Bool
  /-- `CNT[i]`, the candidate counter, 0..9. -/
  cnt : Fin 10
  /-- `EDGE[i]`, the sticky rising-edge flag. -/
  edge : Bool
deriving DecidableEq, Repr

/-- What the foreground has begun and not finished: the micro-step its next step takes (`00_scope.md` rule R6). -/
inductive Micro where
  /-- Nothing: the next foreground step presents a port word. -/
  | idle
  /-- Micro-step `k` of `LOAD`, with `r` the value of `READY` it read (`42_scratchpad_bridge.md` rule R136). -/
  | load (k : Fin 9) (r : Byte)
  /-- Micro-step 2 of a non-atomic `GETEDGE` of input `id` (`43_debouncer.md` rule R157). -/
  | clearEdge (id : Fin 5)
deriving DecidableEq, Repr

/-- Which agent takes a step (`00_scope.md` rule R5). -/
inductive Turn where
  /-- The tick agent, with the raw pin levels `BTN[4:0]` the environment presents at this tick. -/
  | tick (btn : BitVec 5)
  /-- The foreground agent. -/
  | foreground
deriving DecidableEq, Repr

/-- The answer of one step on a port (`10_state.md` rule R36, `30_encoding.md` rules R74, R78). -/
inductive Response where
  /-- No response: a format T event other than `XGET`, a tick, or a command not finished yet. -/
  | none
  /-- `RESP`, the 32-bit response of a format C command. -/
  | word (v : Count)
  /-- The byte string of `XGET`. -/
  | bytes (bs : List Byte)
deriving DecidableEq, Repr

/-- The reasons a step can stop with a fault: there are none. The block raises no exception, and every command and
event is total in every state (`60_exceptions.md` rule R180), so nobody raises a fault. -/
inductive Fault where
deriving DecidableEq, Repr

/-- The reasons a step can be refused. -/
inductive Refusal where
  /-- An instruction that has no meaning yet, raised by its arm of `exec` alone; safe. No arm raises it now. -/
  | notModelled (mnemonic : String)
deriving DecidableEq, Repr

/-- The machine's state. -/
structure State where
  /-- The open parameters, constant for a run (`10_state.md` rule R38; log entry 1). -/
  cfg : Config
  /-- `DIG[0..7]`, the DigitBuffer (rule R20). -/
  dig : Vector Byte 8
  /-- `CUR`, the ScanCursor, a number below 12 (rule R21). -/
  cur : Fin 12
  /-- `BRIGHT` (rule R22). -/
  bright : Byte
  /-- `PSEG`, `SDATA`, `SCLK`, `SLATCH`, `SR`, `DSEL` (rules R23, R24, R25). -/
  pins : Pins
  /-- `STATE`, `CNT`, `EDGE` of the five inputs (rules R26, R27, R28). -/
  db : Vector DebounceState 5
  /-- `BTN[4:0]`, the raw pin levels of the latest tick (rule R29). -/
  btn : BitVec 5
  /-- `TICKS` (rule R30). -/
  ticks : Count
  /-- `TCMP` (rule R31). -/
  tcmp : Count
  /-- `SB[0..254]` (rule R32). -/
  sb : Memory
  /-- `READY` (rule R33). -/
  ready : Byte
  /-- `XMAX` (rule R34). -/
  xmax : Byte
  /-- `XCNT`, a natural number (rule R35). -/
  xcnt : Nat
  /-- The foreground's micro-step in progress. -/
  micro : Micro
  /-- MODEL'S OWN: the environment's turns, the next one first (log entry 5). -/
  schedule : List Turn
  /-- MODEL'S OWN: the words the foreground has yet to present, in order (log entry 9). -/
  port : List PortWord
  /-- MODEL'S OWN: the response of the step just taken (log entry 8). -/
  resp : Response
  /-- MODEL'S OWN: the pin trace of the step just taken (rule R37; log entry 8). -/
  trace : List PinEvent
deriving DecidableEq, Repr

/-- The fields whose reset value the spec leaves unspecified (`10_state.md` rule R40,
`93_implementation_defined.md` U1). -/
structure PowerUp where
  /-- `PSEG`. -/
  pseg : Byte
  /-- `SDATA`. -/
  sdata : Bool
  /-- `SR`. -/
  sr : Byte
  /-- `DSEL`. -/
  dsel : Byte
  /-- `BRIGHT`. -/
  bright : Byte
  /-- `TCMP`. -/
  tcmp : Count
deriving DecidableEq, Repr

/-- The values `State.reset` takes for them. DESIGN CHOICE, unsafe for a statement that rests on them (log entry 3):
a lit display, because `70_reset_and_hazards.md` rule R213 forbids assuming `DSEL = 0`, and the compare value the rule
R211 calls natural for a count of 0. -/
def PowerUp.chosen : PowerUp where
  pseg := 0xFF
  sdata := false
  sr := 0x00
  dsel := 0xFF
  bright := 0x00
  tcmp := 1

/-- The state after reset of a block with parameters `cfg` whose unspecified fields come up as `pu`
(`10_state.md` rule R40). -/
def State.resetWith (cfg : Config) (pu : PowerUp) : State where
  cfg := cfg
  dig := Vector.replicate 8 0x00
  cur := 0
  bright := pu.bright
  pins :=
    { pseg := pu.pseg, sdata := pu.sdata, sclk := false, slatch := false, sr := pu.sr, dsel := pu.dsel }
  db := Vector.replicate 5 { state := false, cnt := 0, edge := false }
  btn := 0b11111
  ticks := 0
  tcmp := pu.tcmp
  sb := []
  ready := 0
  xmax := 0
  xcnt := 0
  micro := .idle
  schedule := []
  port := []
  resp := .none
  trace := []

/-- The machine right after reset: the default parameters (log entry 2) and the power-up values of log entry 3. -/
def State.reset : State := State.resetWith Config.default PowerUp.chosen

end Sys2Proof.Machine
end

