-- ==== Sys2Proof/Machine/Ops.lean ====
section
/-! DEFINITION. The named operations over the state: the ScratchBuffer, the DigitBuffer, the pins and the shift
register, a step's response, the illegal command, and taking and leaving the tick interrupt. -/

namespace Sys2Proof.Machine

open Sys2Proof

/-! ### The ScratchBuffer -/

/-- The byte at an offset; an offset that is not listed reads as `Memory.unlisted`. -/
def Memory.read : Memory → Nat → Byte
  | [], _ => Memory.unlisted
  | (k, c) :: m, a => if k = a then c else Memory.read m a

/-- Write one byte, keeping the canonical form: writing the unlisted byte removes the cell. -/
def Memory.insert : Memory → Nat → Byte → Memory
  | [], a, b => if b = Memory.unlisted then [] else [(a, b)]
  | (k, c) :: m, a, b =>
    if a < k then (if b = Memory.unlisted then (k, c) :: m else (a, b) :: (k, c) :: m)
    else if a = k then (if b = Memory.unlisted then m else (a, b) :: m)
    else (k, c) :: Memory.insert m a b

/-- `SB[a] <- b`. There is no offset 255 and nothing beyond (`20_memory.md` rule R52); an access outside the populated
range does not trap, split or wrap (rule R55), so such a write is ignored. No instruction makes one. -/
def Memory.write (m : Memory) (a : Nat) (b : Byte) : Memory :=
  if a < scratchSize then Memory.insert m a b else m

/-- `SB[off + j] <- bytes[j]` for every `j`, in order (`42_scratchpad_bridge.md` rule R132). -/
def Memory.writeBytes (m : Memory) (off : Nat) : List Byte → Memory
  | [] => m
  | b :: bs => Memory.writeBytes (Memory.write m off b) (off + 1) bs

/-- `SB[0], ..., SB[n-1]` (`42_scratchpad_bridge.md` rule R134). -/
def Memory.readBytes (m : Memory) (n : Nat) : List Byte := (List.range n).map (Memory.read m)

/-! ### The DigitBuffer -/

/-- `DIG[i] <- v`; an index outside `[0, N)` changes nothing (`10_state.md` rule R20). -/
def setDigit (i : Nat) (v : Byte) (s : State) : State :=
  if h : i < 8 then { s with dig := s.dig.set i v } else s

/-! ### The pins and the external shift register -/

/-- The device's shift on the rising edge of `SCLK`: `SR <- {SR[6:0], SDATA}` (`41_scan_engine.md` rule R106). -/
def shiftIn (sr : Byte) (b : Bool) : Byte := sr.extractLsb' 0 7 ++ BitVec.ofBool b

/-- What one pin event does to the pins and the device (`41_scan_engine.md` rules R105, R106, R107): `CLK(1)` shifts
`SDATA` in, `LAT(1)` copies `SR` to `DSEL`. -/
def Pins.apply (p : Pins) : PinEvent → Pins
  | .seg v => { p with pseg := v }
  | .data b => { p with sdata := b }
  | .clk true => { p with sclk := true, sr := shiftIn p.sr p.sdata }
  | .clk false => { p with sclk := false }
  | .lat true => { p with slatch := true, dsel := p.sr }
  | .lat false => { p with slatch := false }

/-- The pins after a list of events. -/
def Pins.applyAll (p : Pins) (es : List PinEvent) : Pins := es.foldl Pins.apply p

/-- `emit E`: the event acts on the pins and is appended to the step's pin trace (`00_scope.md` rule R9). -/
def emit (e : PinEvent) (s : State) : State :=
  { s with pins := s.pins.apply e, trace := s.trace ++ [e] }

/-! ### The response of a step -/

/-- The step answers `r` and drives no pin (`10_state.md` rules R36, R37). -/
def respond (r : Response) (s : State) : State := { s with resp := r, trace := [] }

/-- An illegal format C command: no state changes, `RESP = 0` (`30_encoding.md` rule R77). -/
def illegalCommand (s : State) : State := respond (.word 0) s

/-- An illegal format T event: no state changes, no response (`30_encoding.md` rule R77). -/
def illegalEvent (s : State) : State := respond .none s

/-! ### The tick interrupt -/

/-- A tick is taken: the environment presents the pin levels, the timer re-arms additively and the tick is counted
(`60_exceptions.md` rules R185, R187, R191). The handler saves nothing the block sees (R185), and the mask it holds
ends with the same atomic step (R183). -/
def takeTick (btn : BitVec 5) (s : State) : State :=
  { s with
    btn := btn
    tcmp := s.tcmp + s.cfg.tickInterval
    ticks := s.ticks + 1
    resp := .none
    trace := [] }

/-- The return of the tick handler: the foreground goes on at the point it left, and what the core restores is not the
block's (`60_exceptions.md` rule R188). -/
def returnFromTick (s : State) : State := s

end Sys2Proof.Machine
end

