-- ==== Sys2Proof/Machine/Operands.lean ====
section
/-! DEFINITION. The operand forms: hex values, packed nibbles, segment patterns, requested lengths, chunks, button ids,
and the physical levels of the outputs. -/

namespace Sys2Proof.Machine

open Sys2Proof

/-- `HEXTAB[v]` for a nibble. -/
def hexEntry (cfg : Config) (v : BitVec 4) : Byte := cfg.hextab[v.toNat]'v.isLt

/-- `hexpat(v) = HEXTAB[v[3:0]] | (if v[4] = 1 then DP_BIT else 0x00)` (`41_scan_engine.md` rule R102). -/
def hexpat (cfg : Config) (v : Byte) : Byte :=
  hexEntry cfg (v.extractLsb' 0 4) ||| (if v.getLsbD 4 then cfg.dpBit else 0x00)

/-- One bit of a pattern on its line: `q[SEGMAP[i]] = p[i]`. -/
def segmapBit (cfg : Config) (p : Byte) (i : Fin 8) : Byte :=
  if p.getLsbD i then 1#8 <<< (cfg.segmap[i]).val else 0x00

/-- `segmap(p)`: the physical lines of a logical pattern (`41_scan_engine.md` rule R108). -/
def segmap (cfg : Config) (p : Byte) : Byte :=
  segmapBit cfg p 0 ||| segmapBit cfg p 1 ||| segmapBit cfg p 2 ||| segmapBit cfg p 3 |||
    segmapBit cfg p 4 ||| segmapBit cfg p 5 ||| segmapBit cfg p 6 ||| segmapBit cfg p 7

/-- The one-hot select byte of a cursor below 8, `1 << CUR` (`41_scan_engine.md` rule R109). -/
def selectByte (c : Nat) : Byte := 1#8 <<< c

/-- The pattern `LOAD` gives digit `k` (`42_scratchpad_bridge.md` rule R135): byte `SB[1+k]` in `RAW` mode; in
`PACKED_HEX` mode the low nibble of `SB[1 + k/2]` for an even digit and its high nibble for an odd one. -/
def loadPattern (cfg : Config) (sb : Memory) (k : Nat) : Byte :=
  match cfg.loadMode with
  | .raw => Memory.read sb (1 + k)
  | .packedHex =>
    let b := Memory.read sb (1 + k / 2)
    if k % 2 = 0 then hexpat cfg ((b.extractLsb' 0 4).setWidth 8)
    else hexpat cfg ((b.extractLsb' 4 4).setWidth 8)

/-- `min(len, 255)` of a 16-bit length (`42_scratchpad_bridge.md` rule R131). -/
def clampLength (len : BitVec 16) : Byte := if 255#16 < len then 255#8 else len.setWidth 8

/-- How many of `n` bytes presented at offset `off` lie below `XMAX` (`42_scratchpad_bridge.md` rule R132). -/
def chunkKept (off n xmax : Nat) : Nat := if off < xmax then min n (xmax - off) else 0

/-- The sample of input `i`: the raw pin inverted (`43_debouncer.md` rule R151). -/
def buttonSample (btn : BitVec 5) (i : Nat) : Bool := !btn.getLsbD i

/-- A bit zero-extended to the 32-bit response (`43_debouncer.md` rules R155, R156). -/
def bitResponse (b : Bool) : Response := .word ((BitVec.ofBool b).setWidth 32)

/-- The physical levels of the segment lines (`00_scope.md` rule R4, `SEG_POL`; bit 1 = high). -/
def physicalSegments (s : State) : Byte := if s.cfg.segPol then s.pins.pseg else ~~~ s.pins.pseg

/-- The physical levels of the digit-select outputs (`00_scope.md` rule R4, `DSEL_POL`; bit 1 = high). -/
def physicalSelects (s : State) : Byte := if s.cfg.dselPol then s.pins.dsel else ~~~ s.pins.dsel

end Sys2Proof.Machine
end

