-- ==== Sys2Proof/Machine/Flags.lean ====
section
/-! DEFINITION. The block's flags: the sticky edge flags, the ready flag, and the sign test of a tick goal. -/

namespace Sys2Proof.Machine

open Sys2Proof

/-- `EDGE[id] <- 0`, the other fields of the input and the other inputs unchanged (`43_debouncer.md` rule R156). -/
def clearEdgeFlag (id : Fin 5) (s : State) : State :=
  { s with db := s.db.set id { s.db[id] with edge := false } }

/-- `READY` after a chunk of `n` bytes presented at offset `off`: the accumulated length has reached `XMAX` exactly
when `off + n >= XMAX`, tested on every chunk (`42_scratchpad_bridge.md` rule R132). -/
def readyAfterChunk (off n : Nat) (xmax ready : Byte) : Byte := if xmax.toNat ≤ off + n then xmax else ready

/-- The goal comparison: bit 31 of `(TICKS - goal) mod 2^32` is 0 (`44_tick_helpers.md` rule R172). -/
def goalReached (ticks goal : Count) : Bool := !(ticks - goal).getLsbD 31

end Sys2Proof.Machine
end

