-- ==== Sys2Proof/Machine/Bridge.lean ====
section
/-! DEFINITION. The USB Scratchpad Bridge and the display load (`42_scratchpad_bridge.md`): the meanings of `LOAD`,
`XSTART`, `XDATA` and `XGET`. -/

namespace Sys2Proof.Machine

open Sys2Proof

/-- Micro-step `k` of a `LOAD` that read `r` from `READY` (rules R135, R136): for `k` below 8 it writes digit `k` and
leaves micro-step `k + 1` to the foreground's next step; micro-step 8 clears `READY` and answers `r`. -/
def loadStep (k : Fin 9) (r : Byte) (s : State) : State :=
  if k.val < 8 then
    respond .none { setDigit k.val (loadPattern s.cfg s.sb k.val) s with micro := .load (k + 1) r }
  else respond (.word (r.setWidth 32)) { s with ready := 0, micro := .idle }

/-- `LOAD` (rules R135, R136): with `READY = 0` one step that changes nothing and answers 0; otherwise micro-step 0.
In a build without the scan engine it is an illegal command (`30_encoding.md` rule R77 (e)). -/
def execLoad (s : State) : Host.Outcome State Fault Refusal :=
  if s.cfg.hasScan then
    if s.ready = 0 then .next (respond (.word 0) s) else .next (loadStep 0 s.ready s)
  else .next (illegalCommand s)

/-- `XSTART dir, len`: `XMAX <- min(len, 255)`, `XCNT <- 0`; `dir` changes nothing (rule R131). -/
def execXstart (_dir : Byte) (len : BitVec 16) (s : State) : Host.Outcome State Fault Refusal :=
  .next (respond .none { s with xmax := clampLength len, xcnt := 0 })

/-- The offset of the next chunk, `8 * XCNT` (rule R132). -/
def chunkOffset (s : State) : Nat := chunkSize * s.xcnt

/-- The bytes of a chunk that are stored: those below `XMAX` (rule R132). -/
def keptBytes (bytes : List Byte) (s : State) : List Byte :=
  bytes.take (chunkKept (chunkOffset s) bytes.length s.xmax.toNat)

/-- `XDATA b0 .. b(n-1)` (rule R132). More than 8 bytes are an illegal event (`30_encoding.md` rule R77 (d)). -/
def execXdata (bytes : List Byte) (s : State) : Host.Outcome State Fault Refusal :=
  if bytes.length ≤ chunkSize then
    .next (respond .none
      { s with
        sb := Memory.writeBytes s.sb (chunkOffset s) (keptBytes bytes s)
        xcnt := s.xcnt + 1
        ready := readyAfterChunk (chunkOffset s) bytes.length s.xmax s.ready })
  else .next (illegalEvent s)

/-- `XGET`: the byte string `SB[0], ..., SB[XMAX-1]`; no state changes (rule R134, `30_encoding.md` rule R78). -/
def execXget (s : State) : Host.Outcome State Fault Refusal :=
  .next (respond (.bytes (Memory.readBytes s.sb s.xmax.toNat)) s)

end Sys2Proof.Machine
end

