-- ==== Sys2Proof/Machine/Debouncer.lean ====
section
/-! DEFINITION. The Digital Input Debouncer and the Button Sampler (`43_debouncer.md`): the debounce step, the sampler,
and the meanings of `GETLEVEL`, `GETEDGE` and `RDBTN`. -/

namespace Sys2Proof.Machine

open Sys2Proof

/-- `CNT[i]` after a sample equal to the stable state: 0 (rule R152), or one less, not below 0, with the other
`DB_MODE` (`93_implementation_defined.md` U3; log entry 16). -/
def agreeingCount (mode : DebounceMode) (c : Fin 10) : Fin 10 :=
  match mode with
  | .returnToZero => 0
  | .countDown => if c = 0 then 0 else c - 1

/-- `DebounceStep(i, s)` on the three fields of one input (rule R152). -/
def debounceStep (mode : DebounceMode) (sample : Bool) (d : DebounceState) : DebounceState :=
  if sample = d.state then { d with cnt := agreeingCount mode d.cnt }
  else if d.cnt = 9 then { state := sample, cnt := 0, edge := sample || d.edge }
  else { d with cnt := d.cnt + 1 }

/-- The debounce step of input `i` with its inverted pin (rules R151, R152). -/
def sampleInput (s : State) (i : Fin 5) : DebounceState :=
  debounceStep s.cfg.debounceMode (buttonSample s.btn i) s.db[i]

/-- `SampleStep(BTN)`: the five inputs, all sampled at the same tick (rule R153). -/
def sampleStep (s : State) : State :=
  { s with db := #v[sampleInput s 0, sampleInput s 1, sampleInput s 2, sampleInput s 3, sampleInput s 4] }

/-- The response of `GETLEVEL`: `STATE[idx]`, or 0 for an invalid id (rule R155). -/
def levelResponse (idx : Byte) (s : State) : Response :=
  if h : idx.toNat < 5 then bitResponse s.db[idx.toNat].state else .word 0

/-- The report byte `{0b000, STATE[4], ..., STATE[0]}` (rule R158). -/
def reportByte (s : State) : Byte :=
  (0b000 : BitVec 3) ++ BitVec.ofBool s.db[4].state ++ BitVec.ofBool s.db[3].state ++
    BitVec.ofBool s.db[2].state ++ BitVec.ofBool s.db[1].state ++ BitVec.ofBool s.db[0].state

/-- `GETLEVEL idx` (rule R155). In a build without the sampler it is an illegal command (`30_encoding.md` rule
R77 (e)). -/
def execGetlevel (idx : Byte) (s : State) : Host.Outcome State Fault Refusal :=
  if s.cfg.hasDebounce then .next (respond (levelResponse idx s) s)
  else .next (illegalCommand s)

/-- Micro-step 2 of a non-atomic `GETEDGE`: `EDGE[id] <- 0` (rule R157). -/
def clearEdgeStep (id : Fin 5) (s : State) : State :=
  respond .none { clearEdgeFlag id s with micro := .idle }

/-- `GETEDGE idx` (rule R156): one step that reads and clears; with `GETEDGE_ATOMIC = false`, for a valid id, the read,
the clear being left to the foreground's next step (rule R157). -/
def execGetedge (idx : Byte) (s : State) : Host.Outcome State Fault Refusal :=
  if s.cfg.hasDebounce then
    if h : idx.toNat < 5 then
      if s.cfg.getedgeAtomic then
        .next (respond (bitResponse s.db[idx.toNat].edge) (clearEdgeFlag ⟨idx.toNat, h⟩ s))
      else
        .next (respond (bitResponse s.db[idx.toNat].edge) { s with micro := .clearEdge ⟨idx.toNat, h⟩ })
    else .next (respond (.word 0) s)
  else .next (illegalCommand s)

/-- `RDBTN` (rule R158). -/
def execRdbtn (s : State) : Host.Outcome State Fault Refusal :=
  if s.cfg.hasDebounce then .next (respond (.word ((reportByte s).setWidth 32)) s)
  else .next (illegalCommand s)

end Sys2Proof.Machine
end

