-- ==== Sys2Proof/Machine/ScanEngine.lean ====
section
/-! DEFINITION. The Segment/Digit Scan Engine (`41_scan_engine.md`): the serial protocol, the scan step, and the meanings
of `SETHEX`, `SETRAW` and `SETBRIGHT`. -/

namespace Sys2Proof.Machine

open Sys2Proof

/-- One bit of `ShiftOut`: data, then a clock pulse low-high-low (rule R106). -/
def shiftBit (b : Bool) (s : State) : State := emit (.clk false) (emit (.clk true) (emit (.data b) s))

/-- The bit numbers in the order `ShiftOut` sends them, most significant first. -/
def shiftOrder : List Nat := [7, 6, 5, 4, 3, 2, 1, 0]

/-- `ShiftOut(b)` (rule R106). -/
def shiftOut (b : Byte) (s : State) : State := shiftOrder.foldl (fun t i => shiftBit (b.getLsbD i) t) s

/-- `LatchPulse()` (rule R107). -/
def latchPulse (s : State) : State := emit (.lat false) (emit (.lat true) s)

/-- `CUR <- (CUR + 1) mod 12` (rule R110). -/
def advanceCursor (s : State) : State := { s with cur := s.cur + 1 }

/-- Step 2 of the scan step: with `CUR` below 8, drive the segment lines with `DIG[CUR]`'s pattern, then select the
digit; in an idle slot nothing (rules R109, R111). -/
def presentDigit (s : State) : State :=
  if h : s.cur.val < 8 then
    latchPulse (shiftOut (selectByte s.cur.val) (emit (.seg (segmap s.cfg (s.dig[s.cur.val]'h))) s))
  else s

/-- `ScanStep()`: blank, present, advance (rule R109). -/
def scanStep (s : State) : State := advanceCursor (presentDigit (latchPulse (shiftOut 0x00 s)))

/-- `SETHEX idx, val` (rule R103). In a build without the scan engine it is an illegal command (`30_encoding.md` rule
R77 (e)). -/
def execSethex (idx val : Byte) (s : State) : Host.Outcome State Fault Refusal :=
  if s.cfg.hasScan then .next (respond (.word 0) (setDigit idx.toNat (hexpat s.cfg val) s))
  else .next (illegalCommand s)

/-- `SETRAW idx, val` (rule R104). -/
def execSetraw (idx val : Byte) (s : State) : Host.Outcome State Fault Refusal :=
  if s.cfg.hasScan then .next (respond (.word 0) (setDigit idx.toNat val s))
  else .next (illegalCommand s)

/-- `SETBRIGHT idx`: `BRIGHT <- idx`, which nothing reads (rule R112). -/
def execSetbright (idx : Byte) (s : State) : Host.Outcome State Fault Refusal :=
  if s.cfg.hasScan then .next (respond (.word 0) { s with bright := idx })
  else .next (illegalCommand s)

end Sys2Proof.Machine
end

