-- ==== Sys2Proof/Machine/Ticks.lean ====
section
/-! DEFINITION. The tick step (`60_exceptions.md` rule R187) and the meanings of `NOP`, `TICKGOAL` and `TICKREACHED`
(`44_tick_helpers.md`). -/

namespace Sys2Proof.Machine

open Sys2Proof

/-- The scan step, in a build that has the scan engine. -/
def scanIfPresent (s : State) : State := if s.cfg.hasScan then scanStep s else s

/-- The sample step, in a build that has the button sampler. -/
def sampleIfPresent (s : State) : State := if s.cfg.hasDebounce then sampleStep s else s

/-- `TickStep(BTN)`: the whole body of the handler, one atomic step (`60_exceptions.md` rule R187). -/
def tickStep (btn : BitVec 5) (s : State) : State :=
  returnFromTick (sampleIfPresent (scanIfPresent (takeTick btn s)))

/-- `NOP` (rule R170). -/
def execNop (s : State) : Host.Outcome State Fault Refusal := .next (respond (.word 0) s)

/-- `TICKGOAL imm`: `RESP <- (TICKS + imm) mod 2^32` (rule R171). -/
def execTickgoal (imm : Count) (s : State) : Host.Outcome State Fault Refusal :=
  .next (respond (.word (s.ticks + imm)) s)

/-- `TICKREACHED imm` (rule R172). -/
def execTickreached (imm : Count) (s : State) : Host.Outcome State Fault Refusal :=
  .next (respond (bitResponse (goalReached s.ticks imm)) s)

end Sys2Proof.Machine
end

