-- ==== Sys2Proof/Machine/Dispatch.lean ====
section
/-! DEFINITION. One arm per instruction: a direct call of its meaning. -/

namespace Sys2Proof.Machine

open Sys2Proof

def exec (i : Instr) (s : State) : Host.Outcome State Fault Refusal :=
  match i with
  | .nop => Sys2Proof.Machine.execNop s
  | .sethex idx val => Sys2Proof.Machine.execSethex idx val s
  | .setraw idx val => Sys2Proof.Machine.execSetraw idx val s
  | .setbright idx => Sys2Proof.Machine.execSetbright idx s
  | .getlevel idx => Sys2Proof.Machine.execGetlevel idx s
  | .getedge idx => Sys2Proof.Machine.execGetedge idx s
  | .rdbtn => Sys2Proof.Machine.execRdbtn s
  | .tickgoal imm => Sys2Proof.Machine.execTickgoal imm s
  | .tickreached imm => Sys2Proof.Machine.execTickreached imm s
  | .load => Sys2Proof.Machine.execLoad s
  | .xstart dir len => Sys2Proof.Machine.execXstart dir len s
  | .xdata bytes => Sys2Proof.Machine.execXdata bytes s
  | .xget => Sys2Proof.Machine.execXget s

end Sys2Proof.Machine
end

