-- ==== Sys2Proof/Machine/Agents.lean ====
section
/-! DEFINITION. The agents of `00_scope.md` rule R5: whose turn it is, the foreground's step, and how a word comes to be
the next one the foreground presents. -/

namespace Sys2Proof.Machine

open Sys2Proof

/-- The agent that takes the next step: the environment's choice, and the foreground where it has made none
(log entry 5). -/
def nextTurn (s : State) : Turn :=
  match s.schedule with
  | [] => .foreground
  | t :: _ => t

/-- The state with that turn taken. -/
def dropTurn (s : State) : State := { s with schedule := s.schedule.tail }

/-- A word the decoder rejects: an illegal command of its format (`30_encoding.md` rule R77). -/
def illegalWord (w : PortWord) (s : State) : State :=
  match w with
  | .command _ => illegalCommand s
  | .transport _ => illegalEvent s

/-- The foreground presents one word and the block decodes and executes it in the same step (`30_encoding.md` rule
R70). -/
def acceptWord (w : PortWord) (s : State) : Host.Outcome State Fault Refusal :=
  match decode w with
  | .instr i => exec i s
  | .illegal _ => .next (illegalWord w s)

/-- The foreground agent's step: the micro-step in progress if there is one (no command or event falls between two
micro-steps, `42_scratchpad_bridge.md` rule R136), else the next word of its program; a foreground with no word left
changes nothing (log entry 6). -/
def foregroundStep (s : State) : Host.Outcome State Fault Refusal :=
  match s.micro with
  | .load k r => .next (loadStep k r s)
  | .clearEdge id => .next (clearEdgeStep id s)
  | .idle =>
    match s.port with
    | [] => .next (respond .none s)
    | w :: rest => acceptWord w { s with port := rest }

/-- One agent's step. -/
def agentStep (t : Turn) (s : State) : Host.Outcome State Fault Refusal :=
  match t with
  | .tick btn => .next (tickStep btn s)
  | .foreground => foregroundStep s

/-- The state in which the very next step is the foreground presenting `w`: the foreground's turn first, `w` first in
its program, no micro-step in progress. -/
def placeWord (w : PortWord) (s : State) : State :=
  { s with micro := .idle, schedule := .foreground :: s.schedule, port := w :: s.port }

end Sys2Proof.Machine
end

