-- ==== Sys2Proof/Machine/Step.lean ====
section
/-! DEFINITION. One step of the machine: one atomic step of one agent (`00_scope.md` rules R5, R6). -/

namespace Sys2Proof.Machine

open Sys2Proof

/-- One atomic step of the agent whose turn it is. -/
def step (s : State) : Host.Outcome State Fault Refusal := agentStep (nextTurn s) (dropTurn s)

/-- `s` with the instruction whose bits are `w` placed where the next step presents it (log entry 9). -/
def State.withFetchWord (s : State) (nbits w : Nat) : State :=
  match tablePortWord nbits w with
  | some p => placeWord p s
  | none => s

end Sys2Proof.Machine
end

