-- ==== Sys2Proof/Machine/Pseudo.lean ====
section
/-! DEFINITION. The pseudo-instructions and directives of `30_encoding.md` rules R80 and R81, as the words and turns they
stand for. -/

namespace Sys2Proof.Machine

open Sys2Proof

/-- The payload of a transfer cut into chunks of 8 bytes, the last one shorter if need be (rule R81). The number
`fuel` bounds how many chunks are cut. -/
def chunksOf : Nat → List Byte → List (List Byte)
  | 0, _ => []
  | _ + 1, [] => []
  | fuel + 1, b :: bs => (b :: bs).take chunkSize :: chunksOf fuel ((b :: bs).drop chunkSize)

/-- `XWRITE b0 .. b(L-1)`: `XSTART 0, L`, then one `XDATA` per chunk (rule R81). -/
def xwrite (bytes : List Byte) : List Instr :=
  .xstart 0 (BitVec.ofNat 16 bytes.length) :: (chunksOf bytes.length bytes).map .xdata

/-- `CLRDISP`: `SETRAW i, 0` for the eight digits (rule R81). -/
def clrdisp : List Instr :=
  [.setraw 0 0, .setraw 1 0, .setraw 2 0, .setraw 3 0, .setraw 4 0, .setraw 5 0, .setraw 6 0, .setraw 7 0]

/-- A program of instructions as the words the foreground presents. -/
def programWords (p : List Instr) : List PortWord := p.map encode

/-- `TICKS k, btn`: `k` consecutive ticks with the pins at `btn` (rule R80). -/
def ticksDirective (k : Nat) (btn : BitVec 5) : List Turn := List.replicate k (.tick btn)

end Sys2Proof.Machine
end

