-- ==== Sys2Proof/Safety.lean ====
section
/-! DEFINITION. The terms claims are stated in: what stays unchanged, the invariant of the reachable states, the words
that are illegal, the pin events of a scan step, and runs of several steps. -/

namespace Sys2Proof.Machine

open Sys2Proof

/-! ### Frames: what two states share -/

/-- The DigitBuffer is unchanged. -/
def SameDigits (s t : State) : Prop := ∀ i : Fin 8, t.dig[i] = s.dig[i]

/-- The cursor, the output pins and the external shift register are unchanged. -/
def SameScanner (s t : State) : Prop := t.cur = s.cur ∧ t.pins = s.pins

/-- `STATE`, `CNT` and `EDGE` of every input are unchanged. -/
def SameDebouncer (s t : State) : Prop := ∀ i : Fin 5, t.db[i] = s.db[i]

/-- `TICKS`, `TCMP` and the pin levels of the latest tick are unchanged. -/
def SameTimer (s t : State) : Prop := t.ticks = s.ticks ∧ t.tcmp = s.tcmp ∧ t.btn = s.btn

/-- `READY`, `XMAX` and `XCNT` are unchanged. -/
def SameTransfer (s t : State) : Prop := t.ready = s.ready ∧ t.xmax = s.xmax ∧ t.xcnt = s.xcnt

/-- Every byte of the ScratchBuffer reads as before. -/
def SameMemory (s t : State) : Prop := ∀ a : Nat, Memory.read t.sb a = Memory.read s.sb a

/-- The parameters, the environment's turns and the foreground's words are unchanged. -/
def SameQueues (s t : State) : Prop := t.cfg = s.cfg ∧ t.schedule = s.schedule ∧ t.port = s.port

/-- Everything but the two observations of the step is unchanged. -/
structure Unchanged (s t : State) : Prop where
  digits : SameDigits s t
  scanner : SameScanner s t
  bright : t.bright = s.bright
  debouncer : SameDebouncer s t
  timer : SameTimer s t
  transfer : SameTransfer s t
  memory : SameMemory s t
  queues : SameQueues s t
  micro : t.micro = s.micro

/-! ### The invariant -/

/-- A micro-step in progress is one that a command of this build left: a `LOAD` past its first micro-step whose `r` is
the `READY` it found set and has not cleared (`42_scratchpad_bridge.md` rule R136), or the clear of a `GETEDGE` that is
not atomic (`43_debouncer.md` rule R157). -/
def microInv (s : State) : Prop :=
  match s.micro with
  | .idle => True
  | .load k r => s.cfg.hasScan = true ∧ 0 < k.val ∧ r = s.ready ∧ r ≠ 0
  | .clearEdge _ => s.cfg.hasDebounce = true ∧ s.cfg.getedgeAtomic = false

/-- What holds in every reachable state (`10_state.md` rule R40), beside the ranges the types give: the serial lines
are low between steps, the ScratchBuffer is in its canonical form, `SEGMAP` is a permutation, and a micro-step in
progress is one a command left. -/
structure Inv (s : State) : Prop where
  clockLow : s.pins.sclk = false
  latchLow : s.pins.slatch = false
  memory : Memory.wf s.sb = true
  segmap : s.cfg.wf = true
  micro : microInv s

/-- The select byte a scan step leaves that began with cursor `c`: one-hot for a digit, zero for an idle slot
(`41_scan_engine.md` rule R113). -/
def selectOf (c : Fin 12) : Byte := if c.val < 8 then selectByte c.val else 0x00

/-- A byte that is zero or has exactly one bit set. -/
def ZeroOrOneHot (b : Byte) : Prop := b = 0x00 ∨ ∃ i : Fin 8, b = selectByte i.val

/-- What holds after any scan step (`10_state.md` rule R40): `SR = DSEL`, and `DSEL` selects the digit of the slot
before the cursor, or nothing if that slot is idle. -/
def Scanned (s : State) : Prop := s.pins.sr = s.pins.dsel ∧ s.pins.dsel = selectOf (s.cur - 1)

/-- The pins show nothing, or the digit that the scan step from `s` presents, alone and with the pattern it reads
(`41_scan_engine.md` rule R114). -/
def Shows (s : State) (p : Pins) : Prop :=
  p.dsel = 0x00 ∨
    ∃ h : s.cur.val < 8, p.dsel = selectByte s.cur.val ∧ p.pseg = segmap s.cfg (s.dig[s.cur.val]'h)

/-! ### Illegal commands -/

/-- A word that is an illegal command by its form (`30_encoding.md` rule R77 (a) to (d)). -/
def IllegalForm : PortWord → Prop
  | .command c => 0x0A ≤ (c >>> 56).toNat ∨ (c >>> 32).toNat % 256 ≠ 0
  | .transport t =>
    (t >>> 72).toNat ∉ [0x10, 0x11, 0x12] ∨ ((t >>> 72).toNat = 0x11 ∧ 8 < (t >>> 64).toNat % 256)

/-- The instruction belongs to the scan family, `LOAD` included (`30_encoding.md` rule R77 (e)). -/
def ScanFamily : Instr → Prop
  | .sethex _ _ | .setraw _ _ | .setbright _ | .load => True
  | .nop | .getlevel _ | .getedge _ | .rdbtn | .tickgoal _ | .tickreached _ | .xstart _ _ | .xdata _ | .xget => False

/-- The instruction belongs to the debounce family (`30_encoding.md` rule R77 (e)). -/
def DebounceFamily : Instr → Prop
  | .getlevel _ | .getedge _ | .rdbtn => True
  | .nop | .sethex _ _ | .setraw _ _ | .setbright _ | .tickgoal _ | .tickreached _ | .load | .xstart _ _ | .xdata _
  | .xget => False

/-- The build lacks the instruction's family (`10_state.md` rule R39). -/
def FamilyAbsent (cfg : Config) (i : Instr) : Prop :=
  (ScanFamily i ∧ cfg.hasScan = false) ∨ (DebounceFamily i ∧ cfg.hasDebounce = false)

/-- What the block answers to an illegal command: `RESP = 0` for format C, nothing for format T. -/
def illegalResponse : PortWord → Response
  | .command _ => .word 0
  | .transport _ => .none

/-! ### The pin events of a scan step -/

/-- The 24 events of `ShiftOut(b)` (`41_scan_engine.md` rule R106). -/
def shiftEvents (b : Byte) : List PinEvent :=
  shiftOrder.flatMap fun i => [.data (b.getLsbD i), .clk true, .clk false]

/-- The 2 events of `LatchPulse()` (`41_scan_engine.md` rule R107). -/
def latchEvents : List PinEvent := [.lat true, .lat false]

/-- The pin trace of the scan step from `s` (`41_scan_engine.md` rule R109). -/
def scanEvents (s : State) : List PinEvent :=
  shiftEvents 0x00 ++ latchEvents ++
    if h : s.cur.val < 8 then
      .seg (segmap s.cfg (s.dig[s.cur.val]'h)) :: (shiftEvents (selectByte s.cur.val) ++ latchEvents)
    else []

/-! ### The display load -/

/-- The pattern a load gives digit `k`, in the words of `42_scratchpad_bridge.md` rule R135: the byte `SB[1+k]`, or the
table entry of the low (even digit) or high (odd digit) nibble of `SB[1 + k/2]`, never with the decimal point. -/
def loadedPattern (cfg : Config) (sb : Memory) (k : Nat) : Byte :=
  match cfg.loadMode with
  | .raw => Memory.read sb (1 + k)
  | .packedHex =>
    if k % 2 = 0 then cfg.hextab[(Memory.read sb (1 + k / 2)).toNat % 16]'(Nat.mod_lt _ (Nat.succ_pos 15))
    else cfg.hextab[(Memory.read sb (1 + k / 2)).toNat / 16 % 16]'(Nat.mod_lt _ (Nat.succ_pos 15))

/-! ### Runs -/

/-- `n` steps of the machine. -/
def runSteps (n : Nat) (s : State) : Host.Outcome State Fault Refusal := Host.Core.run Sys2Proof.core n s

/-- How many of the turns are the foreground's. -/
def foregroundTurns : List Turn → Nat
  | [] => 0
  | .foreground :: ts => foregroundTurns ts + 1
  | .tick _ :: ts => foregroundTurns ts

/-- How many of the turns are ticks. -/
def tickTurns : List Turn → Nat
  | [] => 0
  | .foreground :: ts => tickTurns ts
  | .tick _ :: ts => tickTurns ts + 1

/-- The foreground presents `w` at the next step: its turn, no micro-step in progress, and `w` first in its program. -/
def Presents (s : State) (w : PortWord) (rest : List PortWord) : Prop :=
  nextTurn s = .foreground ∧ s.micro = .idle ∧ s.port = w :: rest

end Sys2Proof.Machine
end

