-- ==== Sys2Proof/Certificates/Slice0/Obligations.lean ====
section
/-! DEFINITION. The statements for the provers, from the numbered rules of spec/. -/

open Sys2Proof Sys2Proof.Machine

/-! ### Encoding -/

/-- `30_encoding.md` rule R82: each worked word decodes to its statement, and the statement encodes to the word. -/
def Obligations.WorkedEncodingsAgree : Prop :=
  (decode (.command 0x0000000000000000) = .instr .nop ∧ encode .nop = .command 0x0000000000000000) ∧
  (decode (.command 0x01031A0000000000) = .instr (.sethex 3 0x1A) ∧
    encode (.sethex 3 0x1A) = .command 0x01031A0000000000) ∧
  (decode (.command 0x0207FF0000000000) = .instr (.setraw 7 0xFF) ∧
    encode (.setraw 7 0xFF) = .command 0x0207FF0000000000) ∧
  (decode (.command 0x0208FF0000000000) = .instr (.setraw 8 0xFF) ∧
    encode (.setraw 8 0xFF) = .command 0x0208FF0000000000) ∧
  (decode (.command 0x0302000000000000) = .instr (.setbright 2) ∧
    encode (.setbright 2) = .command 0x0302000000000000) ∧
  (decode (.command 0x0404000000000000) = .instr (.getlevel 4) ∧
    encode (.getlevel 4) = .command 0x0404000000000000) ∧
  (decode (.command 0x0500000000000000) = .instr (.getedge 0) ∧
    encode (.getedge 0) = .command 0x0500000000000000) ∧
  (decode (.command 0x0600000000000000) = .instr .rdbtn ∧ encode .rdbtn = .command 0x0600000000000000) ∧
  (decode (.command 0x0700000000000064) = .instr (.tickgoal 100) ∧
    encode (.tickgoal 100) = .command 0x0700000000000064) ∧
  (decode (.command 0x08000000FFFFFFF0) = .instr (.tickreached 0xFFFFFFF0) ∧
    encode (.tickreached 0xFFFFFFF0) = .command 0x08000000FFFFFFF0) ∧
  (decode (.command 0x0900000000000000) = .instr .load ∧ encode .load = .command 0x0900000000000000) ∧
  (decode (.transport 0x1000000000000000012C) = .instr (.xstart 0 300) ∧
    encode (.xstart 0 300) = .transport 0x1000000000000000012C) ∧
  (decode (.transport 0x11030000000000063F00) = .instr (.xdata [0x00, 0x3F, 0x06]) ∧
    encode (.xdata [0x00, 0x3F, 0x06]) = .transport 0x11030000000000063F00) ∧
  (decode (.transport 0x12000000000000000000) = .instr .xget ∧
    encode .xget = .transport 0x12000000000000000000)

/-- Decoding an encoded well-formed instruction gives it back, every operand at every value its field admits
(`30_encoding.md` rules R71, R72, R75, R76, R79). That `XDATA` holds its valid bytes as a list is the model's choice
(log entry 26, DESIGN CHOICE). -/
def Obligations.DecodeInvertsEncode : Prop :=
  ∀ i : Instr, i.wellFormed = true → decode (encode i) = .instr i

/-- The format C rows of `30_encoding.md` rule R75 in their mask-and-match form: a word that matches a row under the mask
`0xFF0000FF00000000` is that row's instruction, its used fields read from their own bits (rule R71), whatever the
unused ones hold (rule R73); an `op` of `0x0A` or more with `rsv = 0` is illegal. The reason an illegal word carries is
a name of the model (log entry 27, DESIGN CHOICE). -/
def Obligations.CommandRowsSelectedByOpcode : Prop :=
  ∀ c : CommandWord,
    (c &&& 0xFF0000FF00000000 = 0x0000000000000000 → decode (.command c) = .instr .nop) ∧
    (c &&& 0xFF0000FF00000000 = 0x0100000000000000 →
      decode (.command c) = .instr (.sethex ((c >>> 48).setWidth 8) ((c >>> 40).setWidth 8))) ∧
    (c &&& 0xFF0000FF00000000 = 0x0200000000000000 →
      decode (.command c) = .instr (.setraw ((c >>> 48).setWidth 8) ((c >>> 40).setWidth 8))) ∧
    (c &&& 0xFF0000FF00000000 = 0x0300000000000000 →
      decode (.command c) = .instr (.setbright ((c >>> 48).setWidth 8))) ∧
    (c &&& 0xFF0000FF00000000 = 0x0400000000000000 →
      decode (.command c) = .instr (.getlevel ((c >>> 48).setWidth 8))) ∧
    (c &&& 0xFF0000FF00000000 = 0x0500000000000000 →
      decode (.command c) = .instr (.getedge ((c >>> 48).setWidth 8))) ∧
    (c &&& 0xFF0000FF00000000 = 0x0600000000000000 → decode (.command c) = .instr .rdbtn) ∧
    (c &&& 0xFF0000FF00000000 = 0x0700000000000000 →
      decode (.command c) = .instr (.tickgoal (c.setWidth 32))) ∧
    (c &&& 0xFF0000FF00000000 = 0x0800000000000000 →
      decode (.command c) = .instr (.tickreached (c.setWidth 32))) ∧
    (c &&& 0xFF0000FF00000000 = 0x0900000000000000 → decode (.command c) = .instr .load) ∧
    (0x0A00000000000000 ≤ c → c &&& 0x000000FF00000000 = 0 →
      decode (.command c) = .illegal (.reservedOpcode ((c >>> 56).setWidth 8)))

/-- The format T rows of `30_encoding.md` rule R76 in their mask-and-match form: `XSTART` with its direction and its
16-bit length, `XDATA` with its first `n` payload bytes, byte `j` at bits `8j+7:8j` (rule R72), `XGET`; an `XDATA` with
`n` above 8 and any other event code are illegal. The reason an illegal word carries is a name of the model (log entry
27, DESIGN CHOICE). -/
def Obligations.TransportRowsSelectedByEvent : Prop :=
  ∀ t : TransportWord,
    (t &&& 0xFF000000000000000000 = 0x10000000000000000000 →
      decode (.transport t) = .instr (.xstart ((t >>> 64).setWidth 8) (t.setWidth 16))) ∧
    (t &&& 0xFF000000000000000000 = 0x11000000000000000000 → (t >>> 64).toNat % 256 ≤ 8 →
      decode (.transport t) =
        .instr (.xdata ((List.range ((t >>> 64).toNat % 256)).map fun j => (t >>> (8 * j)).setWidth 8))) ∧
    (t &&& 0xFF000000000000000000 = 0x11000000000000000000 → 8 < (t >>> 64).toNat % 256 →
      decode (.transport t) = .illegal (.chunkTooLong ((t >>> 64).setWidth 8))) ∧
    (t &&& 0xFF000000000000000000 = 0x12000000000000000000 → decode (.transport t) = .instr .xget) ∧
    ((t >>> 72).toNat ∉ [0x10, 0x11, 0x12] →
      decode (.transport t) = .illegal (.reservedEvent ((t >>> 72).setWidth 8)))

/-- The decoder rejects exactly the words that are illegal by their form (`30_encoding.md` rule R77 (a) to (d)). -/
def Obligations.DecoderRejectsExactlyIllegalForms : Prop :=
  ∀ w : PortWord, (∃ why, decode w = .illegal why) ↔ IllegalForm w

/-! ### The machine's step -/

/-- When the word the foreground presents decodes to an instruction, the step is `exec` of it at the state with that
turn taken and that word gone from the program (`00_scope.md` rule R5, `30_encoding.md` rule R70). -/
def Obligations.StepRunsDecodedInstruction : Prop :=
  ∀ (s : State) (w : PortWord) (rest : List PortWord) (i : Instr),
    Presents s w rest → decode w = .instr i →
      step s = exec i { s with schedule := s.schedule.tail, port := rest }

/-- A word placed as the opcode table numbers it is what the next step runs, at the state it was placed in (log entry
9). -/
def Obligations.PlacedWordRunsNext : Prop :=
  ∀ (s : State) (nbits w : Nat) (i : Instr),
    decodeTableWord nbits w = some i → step (s.withFetchWord nbits w) = exec i { s with micro := .idle }

/-- An illegal command, by its form or because the build lacks its family, changes no state; format C answers `RESP = 0`
and format T nothing. That the model executes such a word instead of refusing it is the model's choice, log entry 10
(DESIGN CHOICE): the treatment is the one `30_encoding.md` rule R77 gives as the spec's own choice, and
`93_implementation_defined.md` U9 recommends a refusal. -/
def Obligations.IllegalCommandsChangeNothing : Prop :=
  ∀ (s : State) (w : PortWord) (rest : List PortWord),
    Presents s w rest →
    (IllegalForm w ∨ ∃ i, decode w = .instr i ∧ FamilyAbsent s.cfg i) →
      ∃ t, step s = .next t ∧ t.resp = illegalResponse w ∧ t.trace = [] ∧
        Unchanged { s with schedule := s.schedule.tail, port := rest } t

/-- Every command and event is total, in every state (`60_exceptions.md` rule R180); and so is every step, which is the
model's choice for a foreground with nothing to present (log entry 6, DESIGN CHOICE) and for an illegal word or a
command of an absent family (log entry 10, DESIGN CHOICE). -/
def Obligations.EveryStepCompletes : Prop :=
  (∀ (i : Instr) (s : State), ∃ t, exec i s = .next t) ∧ ∀ s : State, ∃ t, step s = .next t

/-! ### The scan engine's commands -/

/-- `41_scan_engine.md` rules R102 and R103, with the source's formula: for an index below 8 the digit becomes
`table[v & 0xF] | ((v & 0x10) ? DP_BIT : 0)`, for any other index nothing; no other state changes. -/
def Obligations.SethexWritesPattern : Prop :=
  ∀ (idx val : Byte) (s : State), s.cfg.hasScan = true →
    ∃ t, exec (.sethex idx val) s = .next t ∧ t.resp = .word 0 ∧ t.trace = [] ∧
      (∀ k : Fin 8, t.dig[k] =
        if k.val = idx.toNat then
          s.cfg.hextab[val.toNat % 16]'(Nat.mod_lt _ (Nat.succ_pos 15)) |||
            (if val &&& 0x10 = 0 then 0x00 else s.cfg.dpBit)
        else s.dig[k]) ∧
      SameScanner s t ∧ t.bright = s.bright ∧ SameDebouncer s t ∧ SameTimer s t ∧ SameTransfer s t ∧
      SameMemory s t ∧ SameQueues s t ∧ t.micro = s.micro

/-- `41_scan_engine.md` rule R104: the byte is stored verbatim for an index below 8, and any other index changes
nothing. -/
def Obligations.SetrawWritesVerbatim : Prop :=
  ∀ (idx val : Byte) (s : State), s.cfg.hasScan = true →
    ∃ t, exec (.setraw idx val) s = .next t ∧ t.resp = .word 0 ∧ t.trace = [] ∧
      (∀ k : Fin 8, t.dig[k] = if k.val = idx.toNat then val else s.dig[k]) ∧
      SameScanner s t ∧ t.bright = s.bright ∧ SameDebouncer s t ∧ SameTimer s t ∧ SameTransfer s t ∧
      SameMemory s t ∧ SameQueues s t ∧ t.micro = s.micro

/-- `41_scan_engine.md` rule R112: `BRIGHT <- idx`, stored verbatim with no range check. -/
def Obligations.SetbrightStoresVerbatim : Prop :=
  ∀ (idx : Byte) (s : State), s.cfg.hasScan = true →
    ∃ t, exec (.setbright idx) s = .next t ∧ t.resp = .word 0 ∧ t.trace = [] ∧ t.bright = idx ∧
      SameDigits s t ∧ SameScanner s t ∧ SameDebouncer s t ∧ SameTimer s t ∧ SameTransfer s t ∧
      SameMemory s t ∧ SameQueues s t ∧ t.micro = s.micro

/-- `41_scan_engine.md` rule R112: no rule reads `BRIGHT`. Two runs that differ only in it take steps that differ only
in it, with the same response and the same pin events. -/
def Obligations.BrightIsInert : Prop :=
  ∀ (s t : State) (v : Byte), step s = .next t →
    ∃ t', step { s with bright := v } = .next t' ∧ { t' with bright := t.bright } = t

/-! ### The scan step -/

/-- The table of `41_scan_engine.md` rule R113: the state after a tick's scan step that began with `CUR = c`, a digit
slot or an idle one. -/
def Obligations.ScanStepPresentsDigit : Prop :=
  ∀ (s : State) (btn : BitVec 5), nextTurn s = .tick btn → s.cfg.hasScan = true →
    ∃ t, step s = .next t ∧
      t.pins.dsel = (if s.cur.val < 8 then BitVec.ofNat 8 (2 ^ s.cur.val) else 0x00) ∧
      t.pins.sr = t.pins.dsel ∧
      t.pins.pseg = (if h : s.cur.val < 8 then segmap s.cfg (s.dig[s.cur.val]'h) else s.pins.pseg) ∧
      t.pins.sdata = decide (s.cur.val = 0) ∧ t.pins.sclk = false ∧ t.pins.slatch = false ∧
      t.cur.val = (if s.cur.val = 11 then 0 else s.cur.val + 1) ∧
      SameDigits s t ∧ t.bright = s.bright

/-- `41_scan_engine.md` rules R105, R106, R107 and R109: the pin trace of a tick's scan step is the blanking byte and its
latch pulse, then in a digit slot the segment pattern, the select byte (both bytes most significant bit first, each bit
data, clock high, clock low) and its latch pulse: 26 events, or 53; and the events acting one by one on the pins and
the shift register leave the pins the step leaves. -/
def Obligations.ScanTraceDrivesThePins : Prop :=
  ∀ (s : State) (btn : BitVec 5), nextTurn s = .tick btn → s.cfg.hasScan = true →
    ∃ t, step s = .next t ∧ t.trace = scanEvents s ∧
      t.trace.length = (if s.cur.val < 8 then 53 else 26) ∧
      s.pins.applyAll t.trace = t.pins

/-- What one scan step shows of `41_scan_engine.md` rule R114, the spec's own derivation, at every point of its trace.
Before the step's first latch pulse `DSEL` and `PSEG` are as before the step, whatever they were (garbage in the
power-up window of `70_reset_and_hazards.md` rule R213); from that pulse on nothing is selected, or the digit of the
cursor is selected alone and the segment lines hold its pattern. What the pins show before the pulse when an earlier
scan step left them is `NoGhostFromOneTickToTheNext`. -/
def Obligations.NoGhostFromFirstLatchPulse : Prop :=
  ∀ (s : State) (btn : BitVec 5), nextTurn s = .tick btn → s.cfg.hasScan = true →
    ∃ t, step s = .next t ∧ ∀ n : Nat,
      (.lat true ∉ t.trace.take n →
        (s.pins.applyAll (t.trace.take n)).dsel = s.pins.dsel ∧
        (s.pins.applyAll (t.trace.take n)).pseg = s.pins.pseg) ∧
      (.lat true ∈ t.trace.take n → Shows s (s.pins.applyAll (t.trace.take n)))

/-- `41_scan_engine.md` rule R114, the spec's own derivation, from one scan step to the next: at every point of a tick's
trace that follows an earlier tick with only foreground steps between, the pins show nothing, or the earlier tick's
digit with the pattern it read, or this tick's digit with the pattern it reads. -/
def Obligations.NoGhostFromOneTickToTheNext : Prop :=
  ∀ (s : State) (btn btn' : BitVec 5) (between more : List Turn), s.cfg.hasScan = true → tickTurns between = 0 →
    s.schedule = .tick btn :: (between ++ .tick btn' :: more) →
    ∃ u v, runSteps (between.length + 1) s = .next u ∧ step u = .next v ∧
      ∀ n : Nat, Shows s (u.pins.applyAll (v.trace.take n)) ∨ Shows u (u.pins.applyAll (v.trace.take n))

/-- `41_scan_engine.md` rule R110, `44_tick_helpers.md` rule R175 and `60_exceptions.md` rules R187, R189: however the
environment interleaves them, `CUR` advances modulo 12, `TICKS` by 1 and `TCMP` by `TICK_INTERVAL` once per serviced
tick, and no foreground step moves any of them.That `CUR` stands still in a build without the scan engine,
where `10_state.md` rule R39 calls it absent, is the model's choice (log entry 25, DESIGN CHOICE). -/
def Obligations.CountersCountServicedTicks : Prop :=
  ∀ (s : State) (turns more : List Turn), s.schedule = turns ++ more →
    ∃ t, runSteps turns.length s = .next t ∧ t.schedule = more ∧
      t.cur.val = (if s.cfg.hasScan then (s.cur.val + tickTurns turns) % 12 else s.cur.val) ∧
      t.ticks = s.ticks + BitVec.ofNat 32 (tickTurns turns) ∧
      t.tcmp = s.tcmp + BitVec.ofNat 32 (tickTurns turns) * s.cfg.tickInterval

/-- `41_scan_engine.md` rule R115, the spec's own derivation: in a window of 12 consecutive serviced ticks, whatever
foreground steps fall between them, each digit position is selected after exactly one tick, alone, nothing is selected
after exactly four, and the slots come in the cursor's order. `f k` is the state right after the tick number `k`. -/
def Obligations.EachDigitOncePerCycle : Prop :=
  ∀ (s : State) (turns more : List Turn), s.cfg.hasScan = true → s.schedule = turns ++ more → tickTurns turns = 12 →
    ∃ f : Fin 12 → State,
      (∀ k : Fin 12, ∃ before btn after, turns = before ++ .tick btn :: after ∧ tickTurns before = k.val ∧
        runSteps (before.length + 1) s = .next (f k)) ∧
      (∀ k : Fin 12, (f k).pins.dsel = selectOf (s.cur + k)) ∧
      (∀ i : Fin 8, ((List.finRange 12).filter fun k => (f k).pins.dsel = selectByte i.val).length = 1) ∧
      ((List.finRange 12).filter fun k => (f k).pins.dsel = 0x00).length = 4

/-- `10_state.md` rule R40, "after any scan step": a tick's scan step leaves `SR = DSEL` with `DSEL` the select byte of
the slot it presented, every later step keeps that, and then `DSEL` is zero or one-hot. -/
def Obligations.SelectsStayZeroOrOneHot : Prop :=
  (∀ (s t : State) (btn : BitVec 5), nextTurn s = .tick btn → s.cfg.hasScan = true → step s = .next t → Scanned t) ∧
  (∀ s t : State, Scanned s → step s = .next t → Scanned t) ∧
  (∀ s : State, Scanned s → s.pins.sr = s.pins.dsel ∧ ZeroOrOneHot s.pins.dsel)

/-- `41_scan_engine.md` rule R108: `q[SEGMAP[i]] = p[i]` for every `i`; and, `SEGMAP` being a permutation, the mapping is
one to one, keeps the dark pattern dark and the full one full. -/
def Obligations.SegmapPermutesBits : Prop :=
  ∀ cfg : Config, cfg.wf = true →
    (∀ (p : Byte) (i : Fin 8), (segmap cfg p).getLsbD (cfg.segmap[i]).val = p.getLsbD i.val) ∧
    (∀ p q : Byte, segmap cfg p = segmap cfg q → p = q) ∧ segmap cfg 0x00 = 0x00 ∧ segmap cfg 0xFF = 0xFF

/-- `70_reset_and_hazards.md` rule R213: whatever `PSEG`, `SDATA`, `SR`, `DSEL`, `BRIGHT` and `TCMP` come up as, the first
tick leaves the same pins: digit 0 selected alone, with the dark pattern of reset. It rests on the spec's own decision
of the reset values of `CUR` and `DIG` (log entry 15). -/
def Obligations.FirstScanStepEndsPowerUpWindow : Prop :=
  ∀ (cfg : Config) (pu : PowerUp) (btn : BitVec 5), cfg.hasScan = true →
    ∃ t, step { State.resetWith cfg pu with schedule := [.tick btn] } = .next t ∧
      t.pins = { pseg := 0x00, sdata := true, sclk := false, slatch := false, sr := 0x01, dsel := 0x01 } ∧
      t.cur.val = 1

/-! ### The tick step -/

/-- `60_exceptions.md` rule R187: what every tick writes, and what none does; in a build without a family the tick
leaves that family's state alone (`10_state.md` rule R39). That such state stays and is never written, and that every
tick records the levels in `BTN`, is the model's choice (log entry 25, DESIGN CHOICE). -/
def Obligations.TickStepFrame : Prop :=
  ∀ (s : State) (btn : BitVec 5), nextTurn s = .tick btn →
    ∃ t, step s = .next t ∧ t.tcmp = s.tcmp + s.cfg.tickInterval ∧ t.ticks = s.ticks + 1 ∧ t.btn = btn ∧
      t.resp = .none ∧ t.schedule = s.schedule.tail ∧ t.port = s.port ∧ t.cfg = s.cfg ∧ t.micro = s.micro ∧
      SameDigits s t ∧ t.bright = s.bright ∧ SameTransfer s t ∧ SameMemory s t ∧
      (s.cfg.hasScan = false → SameScanner s t ∧ t.trace = []) ∧
      (s.cfg.hasDebounce = false → SameDebouncer s t)

/-- `43_debouncer.md` rules R151, R152 and R153: at a tick every input takes its debounce step on its own inverted pin;
an agreeing sample clears the candidate (or counts it down, with the other `DB_MODE` of
`93_implementation_defined.md` U3, which the model holds as a parameter: log entry 16, DESIGN CHOICE), the tenth
consecutive differing one flips the state and a rise sets the edge flag, an earlier differing one is counted. -/
def Obligations.DebounceStepTransitions : Prop :=
  ∀ (s : State) (btn : BitVec 5), nextTurn s = .tick btn → s.cfg.hasDebounce = true →
    ∃ t, step s = .next t ∧ ∀ i : Fin 5,
      (btn.getLsbD i.val = !s.db[i].state →
        t.db[i].state = s.db[i].state ∧ t.db[i].edge = s.db[i].edge ∧
        t.db[i].cnt.val = (if s.cfg.debounceMode = .returnToZero then 0 else s.db[i].cnt.val - 1)) ∧
      (btn.getLsbD i.val = s.db[i].state → s.db[i].cnt.val = 9 →
        t.db[i].state = !s.db[i].state ∧ t.db[i].cnt.val = 0 ∧
        t.db[i].edge = (if s.db[i].state then s.db[i].edge else true)) ∧
      (btn.getLsbD i.val = s.db[i].state → s.db[i].cnt.val < 9 →
        t.db[i].state = s.db[i].state ∧ t.db[i].edge = s.db[i].edge ∧
        t.db[i].cnt.val = s.db[i].cnt.val + 1)

/-- `43_debouncer.md` rule R159 (a): when input `i`'s pin reads the same level at 10 or more serviced ticks in a row,
whatever foreground steps fall between them, its debounced state ends as the inverse of that level. -/
def Obligations.TenEqualSamplesSettle : Prop :=
  ∀ (s : State) (turns more : List Turn) (i : Fin 5) (level : Bool), s.cfg.hasDebounce = true →
    s.schedule = turns ++ more → (∀ btn, Turn.tick btn ∈ turns → btn.getLsbD i.val = level) → 10 ≤ tickTurns turns →
    ∃ t, runSteps turns.length s = .next t ∧ t.db[i].state = !level

/-- `43_debouncer.md` rule R159 (b): from a stable state with no candidate, differing samples at fewer than 10 ticks leave
the state as it is with that many counted, and one agreeing sample after them returns the counter to 0. -/
def Obligations.ShortPulseIsInvisible : Prop :=
  ∀ (s : State) (pulse more : List Turn) (last : BitVec 5) (i : Fin 5), s.cfg.hasDebounce = true →
    s.cfg.debounceMode = .returnToZero → s.schedule = pulse ++ .tick last :: more → s.db[i].cnt = 0 →
    (∀ btn, Turn.tick btn ∈ pulse → btn.getLsbD i.val = s.db[i].state) → tickTurns pulse < 10 →
    last.getLsbD i.val = !s.db[i].state →
    (∃ t, runSteps pulse.length s = .next t ∧ t.db[i].state = s.db[i].state ∧
      t.db[i].cnt.val = tickTurns pulse) ∧
    (∃ t, runSteps (pulse.length + 1) s = .next t ∧ t.db[i].state = s.db[i].state ∧ t.db[i].cnt.val = 0)

/-- `43_debouncer.md` rule R159 (e), the spec's own derivation: a button held from power-up, its pin low at every tick
whatever the other pins read and whatever foreground steps fall between, is not reported after any number of ticks below
10, and is, with its edge flag, right after the 10th. It rests on the spec's own decision of the reset values (log
entry 15). -/
def Obligations.HeldButtonReportsAtTenthTick : Prop :=
  ∀ (cfg : Config) (pu : PowerUp) (port : List PortWord) (turns more : List Turn) (i : Fin 5),
    cfg.hasDebounce = true → (∀ btn, Turn.tick btn ∈ turns → btn.getLsbD i.val = false) →
    (tickTurns turns < 10 →
      ∃ t, runSteps turns.length { State.resetWith cfg pu with schedule := turns ++ more, port := port } = .next t ∧
        t.db[i].state = false ∧ t.db[i].edge = false) ∧
    (∀ (before : List Turn) (last : BitVec 5), turns = before ++ [.tick last] → tickTurns turns = 10 →
      ∃ t, runSteps turns.length { State.resetWith cfg pu with schedule := turns ++ more, port := port } = .next t ∧
        t.db[i].state = true ∧ t.db[i].edge = true ∧ t.ticks = 10)

/-- `43_debouncer.md` rule R159 (d) and `10_state.md` rule R28: over every step, an edge flag becomes set only at a tick
that takes its input from LOW to HIGH, such a tick always sets it, and it becomes clear only in a `GETEDGE` of that
input. -/
def Obligations.EdgeFlagWriters : Prop :=
  ∀ (s t : State) (i : Fin 5), step s = .next t →
    (s.db[i].edge = false → t.db[i].edge = true →
      (∃ btn, nextTurn s = .tick btn) ∧ s.db[i].state = false ∧ t.db[i].state = true) ∧
    (s.db[i].state = false → t.db[i].state = true → t.db[i].edge = true) ∧
    (s.db[i].edge = true → t.db[i].edge = false →
      nextTurn s = .foreground ∧
        (s.micro = .clearEdge i ∨
          ∃ w rest idx, Presents s w rest ∧ decode w = .instr (.getedge idx) ∧ idx.toNat = i.val))

/-! ### The debouncer's commands -/

/-- `43_debouncer.md` rule R155: the debounced level of a valid id, 0 for any other; no state changes. -/
def Obligations.GetlevelAnswersLevel : Prop :=
  ∀ (idx : Byte) (s : State), s.cfg.hasDebounce = true →
    ∃ t, exec (.getlevel idx) s = .next t ∧
      t.resp = .word (if h : idx.toNat < 5 then (if (s.db[idx.toNat]'h).state then 1 else 0) else 0) ∧
      t.trace = [] ∧ Unchanged s t

/-- `43_debouncer.md` rule R156: with `GETEDGE_ATOMIC`, one step answers the edge flag of a valid id and clears that
flag alone; an invalid id answers 0 and clears nothing. -/
def Obligations.GetedgeReadsAndClears : Prop :=
  ∀ (idx : Byte) (s : State), s.cfg.hasDebounce = true → s.cfg.getedgeAtomic = true →
    ∃ t, exec (.getedge idx) s = .next t ∧
      t.resp = .word (if h : idx.toNat < 5 then (if (s.db[idx.toNat]'h).edge then 1 else 0) else 0) ∧
      t.trace = [] ∧
      (∀ i : Fin 5, t.db[i].state = s.db[i].state ∧ t.db[i].cnt = s.db[i].cnt ∧
        t.db[i].edge = (if i.val = idx.toNat then false else s.db[i].edge)) ∧
      SameDigits s t ∧ SameScanner s t ∧ t.bright = s.bright ∧ SameTimer s t ∧ SameTransfer s t ∧
      SameMemory s t ∧ SameQueues s t ∧ t.micro = s.micro

/-- `20_memory.md` rule R57 and `43_debouncer.md` rule R156: two consecutive `GETEDGE` of one input whose flag is set
answer 1 and then 0. -/
def Obligations.SecondGetedgeAnswersZero : Prop :=
  ∀ (idx : Byte) (s t u : State) (h : idx.toNat < 5), s.cfg.hasDebounce = true → s.cfg.getedgeAtomic = true →
    (s.db[idx.toNat]'h).edge = true → exec (.getedge idx) s = .next t → exec (.getedge idx) t = .next u →
      t.resp = .word 1 ∧ u.resp = .word 0 ∧ SameDebouncer t u

/-- `43_debouncer.md` rule R157, `GETEDGE_ATOMIC = false`: for a valid id micro-step 1 answers the flag and changes
nothing but what the foreground does next; micro-step 2, at the foreground's next turn, clears the flag alone. An
invalid id takes one step, answers 0 and changes nothing. That micro-step 1 answers and micro-step 2 does not is log
entry 14's reading (DEDUCED). -/
def Obligations.GetedgeSplitsInTwoMicroSteps : Prop :=
  (∀ (idx : Byte) (s : State) (h : idx.toNat < 5), s.cfg.hasDebounce = true → s.cfg.getedgeAtomic = false →
    ∃ t, exec (.getedge idx) s = .next t ∧ t.resp = .word (if (s.db[idx.toNat]'h).edge then 1 else 0) ∧
      t.trace = [] ∧ t.micro = .clearEdge ⟨idx.toNat, h⟩ ∧ Unchanged { s with micro := t.micro } t) ∧
  (∀ (idx : Byte) (s : State), 5 ≤ idx.toNat → s.cfg.hasDebounce = true → s.cfg.getedgeAtomic = false →
    ∃ t, exec (.getedge idx) s = .next t ∧ t.resp = .word 0 ∧ t.trace = [] ∧ Unchanged s t) ∧
  (∀ (s : State) (id : Fin 5), nextTurn s = .foreground → s.micro = .clearEdge id →
    ∃ t, step s = .next t ∧ t.resp = .none ∧ t.trace = [] ∧ t.micro = .idle ∧
      (∀ i : Fin 5, t.db[i].state = s.db[i].state ∧ t.db[i].cnt = s.db[i].cnt ∧
        t.db[i].edge = (if i = id then false else s.db[i].edge)) ∧
      SameDigits s t ∧ SameScanner s t ∧ t.bright = s.bright ∧ SameTimer s t ∧ SameTransfer s t ∧
      SameMemory s t ∧ SameQueues { s with schedule := s.schedule.tail } t)

/-- `43_debouncer.md` rule R157, `70_reset_and_hazards.md` rule R216: an edge that any ticks set between the two
micro-steps is lost: after the clear the flag is 0, whatever those ticks did. -/
def Obligations.EdgeInTheGapIsLost : Prop :=
  ∀ (s : State) (gap more : List Turn) (id : Fin 5), s.micro = .clearEdge id → foregroundTurns gap = 0 →
    s.schedule = gap ++ .foreground :: more →
    ∃ t, runSteps (gap.length + 1) s = .next t ∧ t.db[id].edge = false ∧ t.micro = .idle ∧ t.port = s.port

/-- `43_debouncer.md` rule R158: bit `i` of the report is `STATE[i]`, every other bit 0; reading it clears nothing. -/
def Obligations.RdbtnReportsLevels : Prop :=
  ∀ s : State, s.cfg.hasDebounce = true →
    ∃ t v, exec .rdbtn s = .next t ∧ t.resp = .word v ∧ t.trace = [] ∧ Unchanged s t ∧
      ∀ j : Nat, v.getLsbD j = if h : j < 5 then (s.db[j]'h).state else false

/-! ### The tick helpers -/

/-- `44_tick_helpers.md` rule R170: the all-zero command word is `NOP`, which answers 0 and changes no state. -/
def Obligations.NopChangesNothing : Prop :=
  decode (.command 0) = .instr .nop ∧
    ∀ s : State, ∃ t, exec .nop s = .next t ∧ t.resp = .word 0 ∧ t.trace = [] ∧ Unchanged s t

/-- `44_tick_helpers.md` rule R171: the sum of `TICKS` and the operand, modulo 2^32; no state changes. -/
def Obligations.TickgoalAddsDelta : Prop :=
  ∀ (imm : Count) (s : State), ∃ t, exec (.tickgoal imm) s = .next t ∧
    t.resp = .word (BitVec.ofNat 32 ((s.ticks.toNat + imm.toNat) % 2 ^ 32)) ∧ t.trace = [] ∧ Unchanged s t

/-- `44_tick_helpers.md` rule R172: 1 exactly when `TICKS - imm`, read as a signed 32-bit number, is not negative; no
state changes. -/
def Obligations.TickreachedTestsSign : Prop :=
  ∀ (imm : Count) (s : State), ∃ t, exec (.tickreached imm) s = .next t ∧
    t.resp = .word (if 0 ≤ (s.ticks - imm).toInt then 1 else 0) ∧ t.trace = [] ∧ Unchanged s t

/-- `44_tick_helpers.md` rule R173: a goal taken with `delta` reads as reached `k` serviced ticks later exactly when
`(k - delta) mod 2^32 < 2^31`; so for a delta below 2^31 it is not reached before `delta` ticks and is reached for the
2^31 ticks from then on. -/
def Obligations.GoalWindowIsHalfTheCounter : Prop :=
  ∀ (s t u : State) (delta g : Count) (k : Nat), exec (.tickgoal delta) s = .next t → t.resp = .word g →
    u.ticks = s.ticks + BitVec.ofNat 32 k →
    ∃ v, exec (.tickreached g) u = .next v ∧
      v.resp = .word (if ((k : Int) - (delta.toNat : Int)) % 2 ^ 32 < 2 ^ 31 then 1 else 0) ∧
      (delta.toNat < 2 ^ 31 → k < delta.toNat → v.resp = .word 0) ∧
      (delta.toNat < 2 ^ 31 → delta.toNat ≤ k → k < delta.toNat + 2 ^ 31 → v.resp = .word 1)

/-! ### The scratchpad bridge -/

/-- `42_scratchpad_bridge.md` rule R131: `XMAX <- min(len, 255)`, `XCNT <- 0`, for both directions alike. -/
def Obligations.XstartClampsLength : Prop :=
  ∀ (dir : Byte) (len : BitVec 16) (s : State), ∃ t, exec (.xstart dir len) s = .next t ∧
    t.xmax.toNat = min len.toNat 255 ∧ t.xcnt = 0 ∧ t.ready = s.ready ∧ t.resp = .none ∧ t.trace = [] ∧
    SameDigits s t ∧ SameScanner s t ∧ t.bright = s.bright ∧ SameDebouncer s t ∧ SameTimer s t ∧
    SameMemory s t ∧ SameQueues s t ∧ t.micro = s.micro

/-- `42_scratchpad_bridge.md` rule R132, for a buffer in its canonical form: byte `j` of the chunk lands at offset
`8 * XCNT + j` if that is below `XMAX`, every other offset reads as before; `XCNT` advances, and `READY` becomes `XMAX`
exactly when `8 * XCNT + n` has reached it. The canonical form, which every step keeps (`EveryStepKeepsInvariant`), is
the model's (log entry 12). -/
def Obligations.XdataStoresChunk : Prop :=
  ∀ (bytes : List Byte) (s : State), bytes.length ≤ 8 → Memory.wf s.sb = true →
    ∃ t, exec (.xdata bytes) s = .next t ∧
      (∀ a : Nat, Memory.read t.sb a =
        if h : 8 * s.xcnt ≤ a ∧ a < s.xmax.toNat ∧ a - 8 * s.xcnt < bytes.length then
          bytes[a - 8 * s.xcnt]'h.2.2
        else Memory.read s.sb a) ∧
      t.xcnt = s.xcnt + 1 ∧ t.xmax = s.xmax ∧
      t.ready = (if 8 * s.xcnt + bytes.length ≥ s.xmax.toNat then s.xmax else s.ready) ∧
      t.resp = .none ∧ t.trace = [] ∧ SameDigits s t ∧ SameScanner s t ∧ t.bright = s.bright ∧
      SameDebouncer s t ∧ SameTimer s t ∧ SameQueues s t ∧ t.micro = s.micro

/-- `42_scratchpad_bridge.md` rule R134, `30_encoding.md` rule R78: a byte string of exactly `XMAX` bytes,
`SB[0] .. SB[XMAX-1]`; no state changes. -/
def Obligations.XgetReturnsScratchpad : Prop :=
  ∀ s : State, ∃ t bs, exec .xget s = .next t ∧ t.resp = .bytes bs ∧ bs.length = s.xmax.toNat ∧
    (∀ (j : Nat) (h : j < bs.length), bs[j] = Memory.read s.sb j) ∧ t.trace = [] ∧ Unchanged s t

/-- `42_scratchpad_bridge.md` rule R139: with `XMAX = 0` every chunk clears `READY` and stores nothing. -/
def Obligations.ZeroLengthTransferClearsReady : Prop :=
  ∀ (bytes : List Byte) (s : State), bytes.length ≤ 8 → s.xmax = 0 →
    ∃ t, exec (.xdata bytes) s = .next t ∧ t.ready = 0 ∧ SameMemory s t

/-- `42_scratchpad_bridge.md` rules R135 and R136: `LOAD` with `READY = 0` is one step that answers 0 and changes
nothing; with `READY` set its own step is micro-step 0, which writes digit 0 and leaves the other micro-steps to the
foreground's next turns (log entry 13, DEDUCED) and answers nothing yet (log entry 14, DEDUCED). -/
def Obligations.LoadTakesItsFirstMicroStep : Prop :=
  (∀ s : State, s.cfg.hasScan = true → s.ready = 0 →
    ∃ t, exec .load s = .next t ∧ t.resp = .word 0 ∧ t.trace = [] ∧ Unchanged s t) ∧
  (∀ s : State, s.cfg.hasScan = true → s.ready ≠ 0 →
    ∃ t, exec .load s = .next t ∧ t.resp = .none ∧ t.trace = [] ∧ t.micro = .load 1 s.ready ∧
      (∀ k : Fin 8, t.dig[k] = if k.val = 0 then loadedPattern s.cfg s.sb 0 else s.dig[k]) ∧
      SameScanner s t ∧ t.bright = s.bright ∧ SameDebouncer s t ∧ SameTimer s t ∧ SameTransfer s t ∧
      SameMemory s t ∧ SameQueues s t)

/-- `42_scratchpad_bridge.md` rules R135 and R136: micro-step `k` of a `LOAD` in progress, at the foreground's turn,
writes digit `k` alone; micro-step 8 clears `READY` alone and answers the `READY` the command read. That micro-steps
below 8 answer nothing and micro-step 8 answers is the model's reading: log entry 14 (DEDUCED). -/
def Obligations.LoadMicroStepsInOrder : Prop :=
  ∀ (s : State) (k : Fin 9) (r : Byte), nextTurn s = .foreground → s.micro = .load k r →
    ∃ t, step s = .next t ∧ t.trace = [] ∧
      (∀ j : Fin 8, t.dig[j] = if j.val = k.val then loadedPattern s.cfg s.sb k.val else s.dig[j]) ∧
      (k.val < 8 → t.micro = .load (k + 1) r ∧ t.ready = s.ready ∧ t.resp = .none) ∧
      (k.val = 8 → t.micro = .idle ∧ t.ready = 0 ∧ t.resp = .word (BitVec.ofNat 32 r.toNat)) ∧
      SameScanner s t ∧ t.bright = s.bright ∧ SameDebouncer s t ∧ SameTimer s t ∧ t.xmax = s.xmax ∧
      t.xcnt = s.xcnt ∧ SameMemory s t ∧ SameQueues { s with schedule := s.schedule.tail } t

/-- `42_scratchpad_bridge.md` rule R136: wherever the environment puts ticks between the nine micro-steps of a `LOAD`, it
ends with all eight digits loaded from the ScratchBuffer, `READY` clear, the old `READY` answered, and the buffer, the
transfer registers and the foreground's program untouched. That the answer comes with the ninth micro-step is the
model's reading (log entries 13 and 14, DEDUCED). -/
def Obligations.LoadIsTheSameUnderEveryInterleaving : Prop :=
  ∀ (s : State) (w : PortWord) (rest : List PortWord) (turns more : List Turn),
    s.micro = .idle → s.port = w :: rest → decode w = .instr .load → s.cfg.hasScan = true → s.ready ≠ 0 →
    s.schedule = turns ++ .foreground :: more → foregroundTurns turns = 8 →
    ∃ t, runSteps (turns.length + 1) s = .next t ∧
      (∀ k : Fin 8, t.dig[k] = loadedPattern s.cfg s.sb k.val) ∧ t.ready = 0 ∧
      t.resp = .word (BitVec.ofNat 32 s.ready.toNat) ∧ t.micro = .idle ∧ t.port = rest ∧ t.schedule = more ∧
      t.cfg = s.cfg ∧ t.bright = s.bright ∧ t.xmax = s.xmax ∧ t.xcnt = s.xcnt ∧ SameMemory s t

/-- `42_scratchpad_bridge.md` rule R133, at every point of the transfer and wherever the environment puts ticks: after
`XSTART` and `m` chunks of `XWRITE b0 .. b(L-1)` the buffer holds the bytes so far, up to `min(L, 255)`, every other
offset reads as before, `XCNT = m`, and `READY` is `min(L, 255)` if the chunks have reached it and untouched before
that: with `L` above 256 it is reached before the last chunk. The rule is the spec's own derivation, and the buffer's
canonical form is the model's choice (log entry 12, DESIGN CHOICE). -/
def Obligations.XwriteFillsScratchpad : Prop :=
  ∀ (s : State) (bytes : List Byte) (rest : List PortWord) (turns more : List Turn) (m : Nat),
    s.micro = .idle → Memory.wf s.sb = true → 1 ≤ bytes.length → bytes.length < 2 ^ 16 →
    s.port = programWords (xwrite bytes) ++ rest → s.schedule = turns ++ more →
    m ≤ (bytes.length + 7) / 8 → foregroundTurns turns = m + 1 →
    ∃ t, runSteps turns.length s = .next t ∧ t.xmax.toNat = min bytes.length 255 ∧ t.xcnt = m ∧
      (∀ a : Nat, Memory.read t.sb a =
        if h : a < bytes.length ∧ a < 8 * m ∧ a < 255 then bytes[a]'h.1 else Memory.read s.sb a) ∧
      t.ready.toNat = (if min bytes.length 255 ≤ 8 * m then min bytes.length 255 else s.ready.toNat) ∧
      t.micro = .idle ∧ t.port = (programWords (xwrite bytes)).drop (m + 1) ++ rest ∧ SameDigits s t

/-! ### The whole machine -/

/-- `10_state.md` rule R41 and `60_exceptions.md` rule R187: no foreground step, whatever the word, writes the cursor, the
pins, the counters, or any `STATE` or `CNT`. -/
def Obligations.ForegroundWritesNoTickState : Prop :=
  ∀ s t : State, nextTurn s = .foreground → step s = .next t →
    SameScanner s t ∧ SameTimer s t ∧ t.trace = [] ∧ t.schedule = s.schedule.tail ∧
    ∀ i : Fin 5, t.db[i].state = s.db[i].state ∧ t.db[i].cnt = s.db[i].cnt

/-- `10_state.md` rules R32 to R35 and R41: which step changes each field of the bridge: `SB` only `XDATA`, `XMAX` only
`XSTART`, `XCNT` only those two, and `READY` only `XDATA`, to `XMAX`, or the last micro-step of `LOAD`, to 0. -/
def Obligations.BridgeFieldWriters : Prop :=
  ∀ s t : State, step s = .next t →
    (t.sb ≠ s.sb → ∃ w rest bytes, Presents s w rest ∧ decode w = .instr (.xdata bytes)) ∧
    (t.xmax ≠ s.xmax → ∃ w rest dir len, Presents s w rest ∧ decode w = .instr (.xstart dir len)) ∧
    (t.xcnt ≠ s.xcnt → ∃ w rest, Presents s w rest ∧
      ((∃ dir len, decode w = .instr (.xstart dir len)) ∨ ∃ bytes, decode w = .instr (.xdata bytes))) ∧
    (t.ready ≠ s.ready →
      (t.ready = s.xmax ∧ ∃ w rest bytes, Presents s w rest ∧ decode w = .instr (.xdata bytes)) ∨
      (t.ready = 0 ∧ nextTurn s = .foreground ∧ ∃ r, s.micro = .load 8 r))

/-- `10_state.md` rule R20: an element of the DigitBuffer changes only in a setter of that element or in a micro-step of
`LOAD`. -/
def Obligations.DigitWriters : Prop :=
  ∀ (s t : State) (k : Fin 8), step s = .next t → t.dig[k] ≠ s.dig[k] →
    nextTurn s = .foreground ∧
      ((∃ r, s.micro = .load k.castSucc r) ∨
        ∃ w rest, Presents s w rest ∧
          ((∃ idx val, decode w = .instr (.sethex idx val) ∧ idx.toNat = k.val) ∨
            (∃ idx val, decode w = .instr (.setraw idx val) ∧ idx.toNat = k.val) ∨
            (decode w = .instr .load ∧ k.val = 0)))

/-- `10_state.md` rule R38: the parameters are never written by any step. -/
def Obligations.ParametersAreConstant : Prop :=
  ∀ s t : State, step s = .next t → t.cfg = s.cfg

/-- Repeating a setter or `XSTART` with the same operands leaves the same state (`20_memory.md` rule R57). -/
def Obligations.SettersAreIdempotent : Prop :=
  ∀ (i : Instr) (s t : State),
    (∃ idx val, i = .sethex idx val) ∨ (∃ idx val, i = .setraw idx val) ∨ (∃ idx, i = .setbright idx) ∨
      (∃ dir len, i = .xstart dir len) →
    exec i s = .next t → exec i t = .next t

/-- Every step keeps the invariant, from every state that meets it. Its low serial lines are `10_state.md` rule R40's and
its permutation is `41_scan_engine.md` rule R108's; the canonical form of `SB` is the model's choice (log entry 12,
DESIGN CHOICE; the offsets are those of `20_memory.md` rule R52), and what it says of a micro-step in progress is the
model's reading of `LOAD` and `GETEDGE` (log entry 13, DEDUCED). -/
def Obligations.EveryStepKeepsInvariant : Prop :=
  ∀ s t : State, Inv s → step s = .next t → Inv t

/-- The invariant holds right after reset, for every well-formed build and every power-up value of the fields the spec
leaves unspecified. That the serial lines are low at reset is the spec's own decision D19 (log entry 15), and the
canonical form of `SB` is the model's choice (log entry 12, DESIGN CHOICE). -/
def Obligations.InvariantHoldsAtReset : Prop :=
  Inv State.reset ∧ ∀ (cfg : Config) (pu : PowerUp), cfg.wf = true → Inv (State.resetWith cfg pu)

/-- The reset table of `10_state.md` rule R40: zero for every field the spec decides (its own decisions D18 and D19, not
the source's), and whatever power-up gave for the rest. -/
def Obligations.ResetLeavesDecidedValues : Prop :=
  ∀ (cfg : Config) (pu : PowerUp),
    let s := State.resetWith cfg pu
    (∀ k : Fin 8, s.dig[k] = 0x00) ∧ s.cur.val = 0 ∧
    (∀ i : Fin 5, s.db[i].state = false ∧ s.db[i].cnt.val = 0 ∧ s.db[i].edge = false) ∧
    s.ticks = 0 ∧ (∀ a, Memory.read s.sb a = 0x00) ∧ s.ready = 0 ∧ s.xmax = 0 ∧ s.xcnt = 0 ∧
    s.pins.sclk = false ∧ s.pins.slatch = false ∧ s.micro = .idle ∧
    s.bright = pu.bright ∧ s.pins.pseg = pu.pseg ∧ s.pins.sdata = pu.sdata ∧ s.pins.sr = pu.sr ∧
    s.pins.dsel = pu.dsel ∧ s.tcmp = pu.tcmp

/-- Two ScratchBuffers in canonical form that read alike at every offset are equal data (`20_memory.md` rule R52; the
form is the model's, log entry 12). -/
def Obligations.CanonicalBuffersAreEqualData : Prop :=
  ∀ m m' : Memory, Memory.wf m = true → Memory.wf m' = true → (∀ a, Memory.read m a = Memory.read m' a) → m = m'
end

