-- ==== Sys2Proof/Laws/State.lean ====
section
/-! SUPPORT. One lemma per field per named update of the state, so that no later proof unfolds a record update. -/

namespace Sys2Proof.Machine

open Sys2Proof

/-! ### After a step's response -/

@[simp] theorem respond_cfg (r : Response) (s : State) : (respond r s).cfg = s.cfg := rfl
@[simp] theorem respond_dig (r : Response) (s : State) : (respond r s).dig = s.dig := rfl
@[simp] theorem respond_cur (r : Response) (s : State) : (respond r s).cur = s.cur := rfl
@[simp] theorem respond_bright (r : Response) (s : State) : (respond r s).bright = s.bright := rfl
@[simp] theorem respond_pins (r : Response) (s : State) : (respond r s).pins = s.pins := rfl
@[simp] theorem respond_db (r : Response) (s : State) : (respond r s).db = s.db := rfl
@[simp] theorem respond_btn (r : Response) (s : State) : (respond r s).btn = s.btn := rfl
@[simp] theorem respond_ticks (r : Response) (s : State) : (respond r s).ticks = s.ticks := rfl
@[simp] theorem respond_tcmp (r : Response) (s : State) : (respond r s).tcmp = s.tcmp := rfl
@[simp] theorem respond_sb (r : Response) (s : State) : (respond r s).sb = s.sb := rfl
@[simp] theorem respond_ready (r : Response) (s : State) : (respond r s).ready = s.ready := rfl
@[simp] theorem respond_xmax (r : Response) (s : State) : (respond r s).xmax = s.xmax := rfl
@[simp] theorem respond_xcnt (r : Response) (s : State) : (respond r s).xcnt = s.xcnt := rfl
@[simp] theorem respond_micro (r : Response) (s : State) : (respond r s).micro = s.micro := rfl
@[simp] theorem respond_schedule (r : Response) (s : State) : (respond r s).schedule = s.schedule := rfl
@[simp] theorem respond_port (r : Response) (s : State) : (respond r s).port = s.port := rfl
@[simp] theorem respond_resp (r : Response) (s : State) : (respond r s).resp = r := rfl
@[simp] theorem respond_trace (r : Response) (s : State) : (respond r s).trace = [] := rfl

/-! ### After an illegal command -/

@[simp] theorem illegalCommand_cfg (s : State) : (illegalCommand s).cfg = s.cfg := rfl
@[simp] theorem illegalCommand_dig (s : State) : (illegalCommand s).dig = s.dig := rfl
@[simp] theorem illegalCommand_cur (s : State) : (illegalCommand s).cur = s.cur := rfl
@[simp] theorem illegalCommand_bright (s : State) : (illegalCommand s).bright = s.bright := rfl
@[simp] theorem illegalCommand_pins (s : State) : (illegalCommand s).pins = s.pins := rfl
@[simp] theorem illegalCommand_db (s : State) : (illegalCommand s).db = s.db := rfl
@[simp] theorem illegalCommand_btn (s : State) : (illegalCommand s).btn = s.btn := rfl
@[simp] theorem illegalCommand_ticks (s : State) : (illegalCommand s).ticks = s.ticks := rfl
@[simp] theorem illegalCommand_tcmp (s : State) : (illegalCommand s).tcmp = s.tcmp := rfl
@[simp] theorem illegalCommand_sb (s : State) : (illegalCommand s).sb = s.sb := rfl
@[simp] theorem illegalCommand_ready (s : State) : (illegalCommand s).ready = s.ready := rfl
@[simp] theorem illegalCommand_xmax (s : State) : (illegalCommand s).xmax = s.xmax := rfl
@[simp] theorem illegalCommand_xcnt (s : State) : (illegalCommand s).xcnt = s.xcnt := rfl
@[simp] theorem illegalCommand_micro (s : State) : (illegalCommand s).micro = s.micro := rfl
@[simp] theorem illegalCommand_schedule (s : State) : (illegalCommand s).schedule = s.schedule := rfl
@[simp] theorem illegalCommand_port (s : State) : (illegalCommand s).port = s.port := rfl
@[simp] theorem illegalCommand_resp (s : State) : (illegalCommand s).resp = .word 0 := rfl
@[simp] theorem illegalCommand_trace (s : State) : (illegalCommand s).trace = [] := rfl

/-! ### After an illegal event -/

@[simp] theorem illegalEvent_cfg (s : State) : (illegalEvent s).cfg = s.cfg := rfl
@[simp] theorem illegalEvent_dig (s : State) : (illegalEvent s).dig = s.dig := rfl
@[simp] theorem illegalEvent_cur (s : State) : (illegalEvent s).cur = s.cur := rfl
@[simp] theorem illegalEvent_bright (s : State) : (illegalEvent s).bright = s.bright := rfl
@[simp] theorem illegalEvent_pins (s : State) : (illegalEvent s).pins = s.pins := rfl
@[simp] theorem illegalEvent_db (s : State) : (illegalEvent s).db = s.db := rfl
@[simp] theorem illegalEvent_btn (s : State) : (illegalEvent s).btn = s.btn := rfl
@[simp] theorem illegalEvent_ticks (s : State) : (illegalEvent s).ticks = s.ticks := rfl
@[simp] theorem illegalEvent_tcmp (s : State) : (illegalEvent s).tcmp = s.tcmp := rfl
@[simp] theorem illegalEvent_sb (s : State) : (illegalEvent s).sb = s.sb := rfl
@[simp] theorem illegalEvent_ready (s : State) : (illegalEvent s).ready = s.ready := rfl
@[simp] theorem illegalEvent_xmax (s : State) : (illegalEvent s).xmax = s.xmax := rfl
@[simp] theorem illegalEvent_xcnt (s : State) : (illegalEvent s).xcnt = s.xcnt := rfl
@[simp] theorem illegalEvent_micro (s : State) : (illegalEvent s).micro = s.micro := rfl
@[simp] theorem illegalEvent_schedule (s : State) : (illegalEvent s).schedule = s.schedule := rfl
@[simp] theorem illegalEvent_port (s : State) : (illegalEvent s).port = s.port := rfl
@[simp] theorem illegalEvent_resp (s : State) : (illegalEvent s).resp = .none := rfl
@[simp] theorem illegalEvent_trace (s : State) : (illegalEvent s).trace = [] := rfl

/-! ### After one pin event -/

@[simp] theorem emit_cfg (e : PinEvent) (s : State) : (emit e s).cfg = s.cfg := rfl
@[simp] theorem emit_dig (e : PinEvent) (s : State) : (emit e s).dig = s.dig := rfl
@[simp] theorem emit_cur (e : PinEvent) (s : State) : (emit e s).cur = s.cur := rfl
@[simp] theorem emit_bright (e : PinEvent) (s : State) : (emit e s).bright = s.bright := rfl
@[simp] theorem emit_pins (e : PinEvent) (s : State) : (emit e s).pins = s.pins.apply e := rfl
@[simp] theorem emit_db (e : PinEvent) (s : State) : (emit e s).db = s.db := rfl
@[simp] theorem emit_btn (e : PinEvent) (s : State) : (emit e s).btn = s.btn := rfl
@[simp] theorem emit_ticks (e : PinEvent) (s : State) : (emit e s).ticks = s.ticks := rfl
@[simp] theorem emit_tcmp (e : PinEvent) (s : State) : (emit e s).tcmp = s.tcmp := rfl
@[simp] theorem emit_sb (e : PinEvent) (s : State) : (emit e s).sb = s.sb := rfl
@[simp] theorem emit_ready (e : PinEvent) (s : State) : (emit e s).ready = s.ready := rfl
@[simp] theorem emit_xmax (e : PinEvent) (s : State) : (emit e s).xmax = s.xmax := rfl
@[simp] theorem emit_xcnt (e : PinEvent) (s : State) : (emit e s).xcnt = s.xcnt := rfl
@[simp] theorem emit_micro (e : PinEvent) (s : State) : (emit e s).micro = s.micro := rfl
@[simp] theorem emit_schedule (e : PinEvent) (s : State) : (emit e s).schedule = s.schedule := rfl
@[simp] theorem emit_port (e : PinEvent) (s : State) : (emit e s).port = s.port := rfl
@[simp] theorem emit_resp (e : PinEvent) (s : State) : (emit e s).resp = s.resp := rfl
@[simp] theorem emit_trace (e : PinEvent) (s : State) : (emit e s).trace = s.trace ++ [e] := rfl

/-! ### After taking a tick -/

@[simp] theorem takeTick_cfg (btn : BitVec 5) (s : State) : (takeTick btn s).cfg = s.cfg := rfl
@[simp] theorem takeTick_dig (btn : BitVec 5) (s : State) : (takeTick btn s).dig = s.dig := rfl
@[simp] theorem takeTick_cur (btn : BitVec 5) (s : State) : (takeTick btn s).cur = s.cur := rfl
@[simp] theorem takeTick_bright (btn : BitVec 5) (s : State) : (takeTick btn s).bright = s.bright := rfl
@[simp] theorem takeTick_pins (btn : BitVec 5) (s : State) : (takeTick btn s).pins = s.pins := rfl
@[simp] theorem takeTick_db (btn : BitVec 5) (s : State) : (takeTick btn s).db = s.db := rfl
@[simp] theorem takeTick_btn (btn : BitVec 5) (s : State) : (takeTick btn s).btn = btn := rfl
@[simp] theorem takeTick_ticks (btn : BitVec 5) (s : State) : (takeTick btn s).ticks = s.ticks + 1 := rfl
@[simp] theorem takeTick_tcmp (btn : BitVec 5) (s : State) : (takeTick btn s).tcmp = s.tcmp + s.cfg.tickInterval := rfl
@[simp] theorem takeTick_sb (btn : BitVec 5) (s : State) : (takeTick btn s).sb = s.sb := rfl
@[simp] theorem takeTick_ready (btn : BitVec 5) (s : State) : (takeTick btn s).ready = s.ready := rfl
@[simp] theorem takeTick_xmax (btn : BitVec 5) (s : State) : (takeTick btn s).xmax = s.xmax := rfl
@[simp] theorem takeTick_xcnt (btn : BitVec 5) (s : State) : (takeTick btn s).xcnt = s.xcnt := rfl
@[simp] theorem takeTick_micro (btn : BitVec 5) (s : State) : (takeTick btn s).micro = s.micro := rfl
@[simp] theorem takeTick_schedule (btn : BitVec 5) (s : State) : (takeTick btn s).schedule = s.schedule := rfl
@[simp] theorem takeTick_port (btn : BitVec 5) (s : State) : (takeTick btn s).port = s.port := rfl
@[simp] theorem takeTick_resp (btn : BitVec 5) (s : State) : (takeTick btn s).resp = .none := rfl
@[simp] theorem takeTick_trace (btn : BitVec 5) (s : State) : (takeTick btn s).trace = [] := rfl

/-! ### After the cursor's advance -/

@[simp] theorem advanceCursor_cfg (s : State) : (advanceCursor s).cfg = s.cfg := rfl
@[simp] theorem advanceCursor_dig (s : State) : (advanceCursor s).dig = s.dig := rfl
@[simp] theorem advanceCursor_cur (s : State) : (advanceCursor s).cur = s.cur + 1 := rfl
@[simp] theorem advanceCursor_bright (s : State) : (advanceCursor s).bright = s.bright := rfl
@[simp] theorem advanceCursor_pins (s : State) : (advanceCursor s).pins = s.pins := rfl
@[simp] theorem advanceCursor_db (s : State) : (advanceCursor s).db = s.db := rfl
@[simp] theorem advanceCursor_btn (s : State) : (advanceCursor s).btn = s.btn := rfl
@[simp] theorem advanceCursor_ticks (s : State) : (advanceCursor s).ticks = s.ticks := rfl
@[simp] theorem advanceCursor_tcmp (s : State) : (advanceCursor s).tcmp = s.tcmp := rfl
@[simp] theorem advanceCursor_sb (s : State) : (advanceCursor s).sb = s.sb := rfl
@[simp] theorem advanceCursor_ready (s : State) : (advanceCursor s).ready = s.ready := rfl
@[simp] theorem advanceCursor_xmax (s : State) : (advanceCursor s).xmax = s.xmax := rfl
@[simp] theorem advanceCursor_xcnt (s : State) : (advanceCursor s).xcnt = s.xcnt := rfl
@[simp] theorem advanceCursor_micro (s : State) : (advanceCursor s).micro = s.micro := rfl
@[simp] theorem advanceCursor_schedule (s : State) : (advanceCursor s).schedule = s.schedule := rfl
@[simp] theorem advanceCursor_port (s : State) : (advanceCursor s).port = s.port := rfl
@[simp] theorem advanceCursor_resp (s : State) : (advanceCursor s).resp = s.resp := rfl
@[simp] theorem advanceCursor_trace (s : State) : (advanceCursor s).trace = s.trace := rfl

/-! ### After clearing an edge flag -/

@[simp] theorem clearEdgeFlag_cfg (id : Fin 5) (s : State) : (clearEdgeFlag id s).cfg = s.cfg := rfl
@[simp] theorem clearEdgeFlag_dig (id : Fin 5) (s : State) : (clearEdgeFlag id s).dig = s.dig := rfl
@[simp] theorem clearEdgeFlag_cur (id : Fin 5) (s : State) : (clearEdgeFlag id s).cur = s.cur := rfl
@[simp] theorem clearEdgeFlag_bright (id : Fin 5) (s : State) : (clearEdgeFlag id s).bright = s.bright := rfl
@[simp] theorem clearEdgeFlag_pins (id : Fin 5) (s : State) : (clearEdgeFlag id s).pins = s.pins := rfl
@[simp] theorem clearEdgeFlag_btn (id : Fin 5) (s : State) : (clearEdgeFlag id s).btn = s.btn := rfl
@[simp] theorem clearEdgeFlag_ticks (id : Fin 5) (s : State) : (clearEdgeFlag id s).ticks = s.ticks := rfl
@[simp] theorem clearEdgeFlag_tcmp (id : Fin 5) (s : State) : (clearEdgeFlag id s).tcmp = s.tcmp := rfl
@[simp] theorem clearEdgeFlag_sb (id : Fin 5) (s : State) : (clearEdgeFlag id s).sb = s.sb := rfl
@[simp] theorem clearEdgeFlag_ready (id : Fin 5) (s : State) : (clearEdgeFlag id s).ready = s.ready := rfl
@[simp] theorem clearEdgeFlag_xmax (id : Fin 5) (s : State) : (clearEdgeFlag id s).xmax = s.xmax := rfl
@[simp] theorem clearEdgeFlag_xcnt (id : Fin 5) (s : State) : (clearEdgeFlag id s).xcnt = s.xcnt := rfl
@[simp] theorem clearEdgeFlag_micro (id : Fin 5) (s : State) : (clearEdgeFlag id s).micro = s.micro := rfl
@[simp] theorem clearEdgeFlag_schedule (id : Fin 5) (s : State) : (clearEdgeFlag id s).schedule = s.schedule := rfl
@[simp] theorem clearEdgeFlag_port (id : Fin 5) (s : State) : (clearEdgeFlag id s).port = s.port := rfl
@[simp] theorem clearEdgeFlag_resp (id : Fin 5) (s : State) : (clearEdgeFlag id s).resp = s.resp := rfl
@[simp] theorem clearEdgeFlag_trace (id : Fin 5) (s : State) : (clearEdgeFlag id s).trace = s.trace := rfl

/-! ### After the sample step -/

@[simp] theorem sampleStep_cfg (s : State) : (sampleStep s).cfg = s.cfg := rfl
@[simp] theorem sampleStep_dig (s : State) : (sampleStep s).dig = s.dig := rfl
@[simp] theorem sampleStep_cur (s : State) : (sampleStep s).cur = s.cur := rfl
@[simp] theorem sampleStep_bright (s : State) : (sampleStep s).bright = s.bright := rfl
@[simp] theorem sampleStep_pins (s : State) : (sampleStep s).pins = s.pins := rfl
@[simp] theorem sampleStep_btn (s : State) : (sampleStep s).btn = s.btn := rfl
@[simp] theorem sampleStep_ticks (s : State) : (sampleStep s).ticks = s.ticks := rfl
@[simp] theorem sampleStep_tcmp (s : State) : (sampleStep s).tcmp = s.tcmp := rfl
@[simp] theorem sampleStep_sb (s : State) : (sampleStep s).sb = s.sb := rfl
@[simp] theorem sampleStep_ready (s : State) : (sampleStep s).ready = s.ready := rfl
@[simp] theorem sampleStep_xmax (s : State) : (sampleStep s).xmax = s.xmax := rfl
@[simp] theorem sampleStep_xcnt (s : State) : (sampleStep s).xcnt = s.xcnt := rfl
@[simp] theorem sampleStep_micro (s : State) : (sampleStep s).micro = s.micro := rfl
@[simp] theorem sampleStep_schedule (s : State) : (sampleStep s).schedule = s.schedule := rfl
@[simp] theorem sampleStep_port (s : State) : (sampleStep s).port = s.port := rfl
@[simp] theorem sampleStep_resp (s : State) : (sampleStep s).resp = s.resp := rfl
@[simp] theorem sampleStep_trace (s : State) : (sampleStep s).trace = s.trace := rfl

/-! ### After taking a turn -/

@[simp] theorem dropTurn_cfg (s : State) : (dropTurn s).cfg = s.cfg := rfl
@[simp] theorem dropTurn_dig (s : State) : (dropTurn s).dig = s.dig := rfl
@[simp] theorem dropTurn_cur (s : State) : (dropTurn s).cur = s.cur := rfl
@[simp] theorem dropTurn_bright (s : State) : (dropTurn s).bright = s.bright := rfl
@[simp] theorem dropTurn_pins (s : State) : (dropTurn s).pins = s.pins := rfl
@[simp] theorem dropTurn_db (s : State) : (dropTurn s).db = s.db := rfl
@[simp] theorem dropTurn_btn (s : State) : (dropTurn s).btn = s.btn := rfl
@[simp] theorem dropTurn_ticks (s : State) : (dropTurn s).ticks = s.ticks := rfl
@[simp] theorem dropTurn_tcmp (s : State) : (dropTurn s).tcmp = s.tcmp := rfl
@[simp] theorem dropTurn_sb (s : State) : (dropTurn s).sb = s.sb := rfl
@[simp] theorem dropTurn_ready (s : State) : (dropTurn s).ready = s.ready := rfl
@[simp] theorem dropTurn_xmax (s : State) : (dropTurn s).xmax = s.xmax := rfl
@[simp] theorem dropTurn_xcnt (s : State) : (dropTurn s).xcnt = s.xcnt := rfl
@[simp] theorem dropTurn_micro (s : State) : (dropTurn s).micro = s.micro := rfl
@[simp] theorem dropTurn_schedule (s : State) : (dropTurn s).schedule = s.schedule.tail := rfl
@[simp] theorem dropTurn_port (s : State) : (dropTurn s).port = s.port := rfl
@[simp] theorem dropTurn_resp (s : State) : (dropTurn s).resp = s.resp := rfl
@[simp] theorem dropTurn_trace (s : State) : (dropTurn s).trace = s.trace := rfl

/-! ### After placing a word -/

@[simp] theorem placeWord_cfg (w : PortWord) (s : State) : (placeWord w s).cfg = s.cfg := rfl
@[simp] theorem placeWord_dig (w : PortWord) (s : State) : (placeWord w s).dig = s.dig := rfl
@[simp] theorem placeWord_cur (w : PortWord) (s : State) : (placeWord w s).cur = s.cur := rfl
@[simp] theorem placeWord_bright (w : PortWord) (s : State) : (placeWord w s).bright = s.bright := rfl
@[simp] theorem placeWord_pins (w : PortWord) (s : State) : (placeWord w s).pins = s.pins := rfl
@[simp] theorem placeWord_db (w : PortWord) (s : State) : (placeWord w s).db = s.db := rfl
@[simp] theorem placeWord_btn (w : PortWord) (s : State) : (placeWord w s).btn = s.btn := rfl
@[simp] theorem placeWord_ticks (w : PortWord) (s : State) : (placeWord w s).ticks = s.ticks := rfl
@[simp] theorem placeWord_tcmp (w : PortWord) (s : State) : (placeWord w s).tcmp = s.tcmp := rfl
@[simp] theorem placeWord_sb (w : PortWord) (s : State) : (placeWord w s).sb = s.sb := rfl
@[simp] theorem placeWord_ready (w : PortWord) (s : State) : (placeWord w s).ready = s.ready := rfl
@[simp] theorem placeWord_xmax (w : PortWord) (s : State) : (placeWord w s).xmax = s.xmax := rfl
@[simp] theorem placeWord_xcnt (w : PortWord) (s : State) : (placeWord w s).xcnt = s.xcnt := rfl
@[simp] theorem placeWord_micro (w : PortWord) (s : State) : (placeWord w s).micro = .idle := rfl
@[simp] theorem placeWord_schedule (w : PortWord) (s : State) : (placeWord w s).schedule = .foreground :: s.schedule := rfl
@[simp] theorem placeWord_port (w : PortWord) (s : State) : (placeWord w s).port = w :: s.port := rfl
@[simp] theorem placeWord_resp (w : PortWord) (s : State) : (placeWord w s).resp = s.resp := rfl
@[simp] theorem placeWord_trace (w : PortWord) (s : State) : (placeWord w s).trace = s.trace := rfl

/-! ### After writing a digit -/

@[simp] theorem setDigit_cfg (i : Nat) (v : Byte) (s : State) : (setDigit i v s).cfg = s.cfg := by unfold setDigit; split <;> rfl
@[simp] theorem setDigit_cur (i : Nat) (v : Byte) (s : State) : (setDigit i v s).cur = s.cur := by unfold setDigit; split <;> rfl
@[simp] theorem setDigit_bright (i : Nat) (v : Byte) (s : State) : (setDigit i v s).bright = s.bright := by unfold setDigit; split <;> rfl
@[simp] theorem setDigit_pins (i : Nat) (v : Byte) (s : State) : (setDigit i v s).pins = s.pins := by unfold setDigit; split <;> rfl
@[simp] theorem setDigit_db (i : Nat) (v : Byte) (s : State) : (setDigit i v s).db = s.db := by unfold setDigit; split <;> rfl
@[simp] theorem setDigit_btn (i : Nat) (v : Byte) (s : State) : (setDigit i v s).btn = s.btn := by unfold setDigit; split <;> rfl
@[simp] theorem setDigit_ticks (i : Nat) (v : Byte) (s : State) : (setDigit i v s).ticks = s.ticks := by unfold setDigit; split <;> rfl
@[simp] theorem setDigit_tcmp (i : Nat) (v : Byte) (s : State) : (setDigit i v s).tcmp = s.tcmp := by unfold setDigit; split <;> rfl
@[simp] theorem setDigit_sb (i : Nat) (v : Byte) (s : State) : (setDigit i v s).sb = s.sb := by unfold setDigit; split <;> rfl
@[simp] theorem setDigit_ready (i : Nat) (v : Byte) (s : State) : (setDigit i v s).ready = s.ready := by unfold setDigit; split <;> rfl
@[simp] theorem setDigit_xmax (i : Nat) (v : Byte) (s : State) : (setDigit i v s).xmax = s.xmax := by unfold setDigit; split <;> rfl
@[simp] theorem setDigit_xcnt (i : Nat) (v : Byte) (s : State) : (setDigit i v s).xcnt = s.xcnt := by unfold setDigit; split <;> rfl
@[simp] theorem setDigit_micro (i : Nat) (v : Byte) (s : State) : (setDigit i v s).micro = s.micro := by unfold setDigit; split <;> rfl
@[simp] theorem setDigit_schedule (i : Nat) (v : Byte) (s : State) : (setDigit i v s).schedule = s.schedule := by unfold setDigit; split <;> rfl
@[simp] theorem setDigit_port (i : Nat) (v : Byte) (s : State) : (setDigit i v s).port = s.port := by unfold setDigit; split <;> rfl
@[simp] theorem setDigit_resp (i : Nat) (v : Byte) (s : State) : (setDigit i v s).resp = s.resp := by unfold setDigit; split <;> rfl
@[simp] theorem setDigit_trace (i : Nat) (v : Byte) (s : State) : (setDigit i v s).trace = s.trace := by unfold setDigit; split <;> rfl

end Sys2Proof.Machine
end

