-- ==== Sys2Proof/Laws/Debounce.lean ====
section
/-! SUPPORT. What the debounce step, the sampler and the tick step do, said once. -/

namespace Sys2Proof.Machine

open Sys2Proof

/-- A sample equal to the stable state abandons (or counts down) the candidate. -/
theorem debounceStep_agree {mode : DebounceMode} {sample : Bool} {d : DebounceState} (h : sample = d.state) :
    debounceStep mode sample d = { d with cnt := agreeingCount mode d.cnt } := if_pos h

/-- The tenth consecutive differing sample flips the state, and sets the edge flag if the flip is to HIGH. -/
theorem debounceStep_flip {mode : DebounceMode} {sample : Bool} {d : DebounceState} (h : sample ≠ d.state)
    (h9 : d.cnt = 9) : debounceStep mode sample d = { state := sample, cnt := 0, edge := sample || d.edge } := by
  rw [debounceStep, if_neg h, if_pos h9]

/-- An earlier differing sample is counted. -/
theorem debounceStep_count {mode : DebounceMode} {sample : Bool} {d : DebounceState} (h : sample ≠ d.state)
    (h9 : d.cnt ≠ 9) : debounceStep mode sample d = { d with cnt := d.cnt + 1 } := by
  rw [debounceStep, if_neg h, if_neg h9]

/-- The edge flag is set only with a rise, and never cleared, by a debounce step. -/
theorem debounceStep_edge (mode : DebounceMode) (sample : Bool) (d : DebounceState) :
    (debounceStep mode sample d).edge = (d.edge || (!d.state && (debounceStep mode sample d).state)) := by
  by_cases h : sample = d.state
  · rw [debounceStep_agree h]; cases d.edge <;> cases d.state <;> rfl
  · by_cases h9 : d.cnt = 9
    · rw [debounceStep_flip h h9]; revert h; cases sample <;> cases d.edge <;> cases d.state <;> simp
    · rw [debounceStep_count h h9]; cases d.edge <;> cases d.state <;> rfl

/-- The sample step runs the debounce step of each input on that input's own pin and fields. -/
theorem sampleStep_get (s : State) (i : Fin 5) : (sampleStep s).db[i] = sampleInput s i := by
  match i with
  | 0 => rfl
  | 1 => rfl
  | 2 => rfl
  | 3 => rfl
  | 4 => rfl

/-- Clearing one edge flag: that input's flag, and nothing of any other input. -/
theorem clearEdgeFlag_get (id i : Fin 5) (s : State) :
    (clearEdgeFlag id s).db[i] = if i = id then { s.db[i] with edge := false } else s.db[i] := by
  simp only [clearEdgeFlag, Fin.getElem_fin, Vector.getElem_set]
  by_cases h : i = id
  · subst h; simp
  · have : ¬ id.val = i.val := fun e => h (Fin.ext e.symm)
    simp [h, this]

/-! ### The tick step, field by field -/

@[simp] theorem returnFromTick_eq (s : State) : returnFromTick s = s := rfl

end Sys2Proof.Machine
end

