-- ==== Sys2Proof/Laws/Encoding.lean ====
section
/-! SUPPORT. The fields of an encoded word: each is the field it was built from (`30_encoding.md` rules R71, R72). -/

namespace Sys2Proof

/-- A slice of a concatenation that lies in its upper part. -/
theorem extractLsb'_append_high {a b : Nat} (x : BitVec a) (y : BitVec b) (start len : Nat) (h : b ≤ start) :
    (x ++ y).extractLsb' start len = x.extractLsb' (start - b) len := by
  apply BitVec.eq_of_getLsbD_eq
  intro i hi
  have h1 : ¬ start + i < b := by omega
  have h2 : start + i - b = start - b + i := by omega
  simp [BitVec.getLsbD_append, h1, h2]

/-- A slice of a concatenation that lies in its lower part. -/
theorem extractLsb'_append_low {a b : Nat} (x : BitVec a) (y : BitVec b) (start len : Nat) (h : start + len ≤ b) :
    (x ++ y).extractLsb' start len = y.extractLsb' start len := by
  apply BitVec.eq_of_getLsbD_eq
  intro i hi
  have h1 : start + i < b := by omega
  simp [BitVec.getLsbD_append, h1]

/-- The slice that is the whole. -/
theorem extractLsb'_whole {a : Nat} (x : BitVec a) : x.extractLsb' 0 a = x := by
  apply BitVec.eq_of_getLsbD_eq
  intro i hi
  simp [hi]

@[simp] theorem commandOp_commandWord (op idx val : Byte) (imm : Count) : commandOp (commandWord op idx val imm) = op := by
  unfold commandOp commandWord
  rw [extractLsb'_append_high _ _ _ _ (by omega), extractLsb'_append_high _ _ _ _ (by omega),
    extractLsb'_append_high _ _ _ _ (by omega), extractLsb'_append_high _ _ _ _ (by omega)]
  exact extractLsb'_whole op

@[simp] theorem commandIdx_commandWord (op idx val : Byte) (imm : Count) :
    commandIdx (commandWord op idx val imm) = idx := by
  unfold commandIdx commandWord
  rw [extractLsb'_append_high _ _ _ _ (by omega), extractLsb'_append_high _ _ _ _ (by omega),
    extractLsb'_append_high _ _ _ _ (by omega), extractLsb'_append_low _ _ _ _ (by omega)]
  exact extractLsb'_whole idx

@[simp] theorem commandVal_commandWord (op idx val : Byte) (imm : Count) :
    commandVal (commandWord op idx val imm) = val := by
  unfold commandVal commandWord
  rw [extractLsb'_append_high _ _ _ _ (by omega), extractLsb'_append_high _ _ _ _ (by omega),
    extractLsb'_append_low _ _ _ _ (by omega)]
  exact extractLsb'_whole val

@[simp] theorem commandRsv_commandWord (op idx val : Byte) (imm : Count) :
    commandRsv (commandWord op idx val imm) = 0x00 := by
  unfold commandRsv commandWord
  rw [extractLsb'_append_high _ _ _ _ (by omega), extractLsb'_append_low _ _ _ _ (by omega)]
  exact extractLsb'_whole _

@[simp] theorem commandImm_commandWord (op idx val : Byte) (imm : Count) :
    commandImm (commandWord op idx val imm) = imm := by
  unfold commandImm commandWord
  rw [extractLsb'_append_low _ _ _ _ (by omega)]
  exact extractLsb'_whole imm

@[simp] theorem transportEv_transportWord (ev n : Byte) (payload : BitVec 64) :
    transportEv (transportWord ev n payload) = ev := by
  unfold transportEv transportWord
  rw [extractLsb'_append_high _ _ _ _ (by omega), extractLsb'_append_high _ _ _ _ (by omega)]
  exact extractLsb'_whole ev

@[simp] theorem transportN_transportWord (ev n : Byte) (payload : BitVec 64) :
    transportN (transportWord ev n payload) = n := by
  unfold transportN transportWord
  rw [extractLsb'_append_high _ _ _ _ (by omega), extractLsb'_append_low _ _ _ _ (by omega)]
  exact extractLsb'_whole n

@[simp] theorem transportPayload_transportWord (ev n : Byte) (payload : BitVec 64) :
    transportPayload (transportWord ev n payload) = payload := by
  unfold transportPayload transportWord
  rw [extractLsb'_append_low _ _ _ _ (by omega)]
  exact extractLsb'_whole payload

/-- The low byte of packed bytes is the first one. -/
theorem payloadByte_packBytes_zero (b : Byte) (bs : List Byte) : payloadByte (packBytes (b :: bs)) 0 = b := by
  apply BitVec.eq_of_getLsbD_eq
  intro i hi
  have h : i < 64 := by omega
  simp [payloadByte, packBytes, hi, h]

/-- A later byte of packed bytes is a byte of the rest. -/
theorem payloadByte_packBytes_succ (b : Byte) (bs : List Byte) (j : Nat) (hj : j < 7) :
    payloadByte (packBytes (b :: bs)) (j + 1) = payloadByte (packBytes bs) j := by
  apply BitVec.eq_of_getLsbD_eq
  intro i hi
  have h : 8 * (j + 1) + i < 64 := by omega
  have h2 : ¬ 8 * (j + 1) + i < 8 := by omega
  have h3 : 8 * (j + 1) + i - 8 = 8 * j + i := by omega
  have h4 : 8 ≤ 8 * (j + 1) + i := by omega
  have h5 : 8 * j + i < 64 := by omega
  simp [payloadByte, packBytes, hi, h, h2, h3, BitVec.getLsbD_of_ge b (8 * (j + 1) + i) h4,
    BitVec.getLsbD_eq_getElem h5]

end Sys2Proof
end

