-- ==== Sys2Proof/Laws/Exec.lean ====
section
/-! SUPPORT. What every command and event leaves alone, and what the operations they share do. -/

namespace Sys2Proof.Machine

open Sys2Proof

/-- Reading a digit after a digit write: the written element, and every other as before; an index outside `[0, N)`
names none (`10_state.md` rule R20). -/
theorem setDigit_get (i : Nat) (v : Byte) (s : State) (k : Fin 8) :
    (setDigit i v s).dig[k] = if k.val = i then v else s.dig[k] := by
  unfold setDigit
  split
  · simp [Vector.getElem_set, eq_comm]
  · have : k.val ≠ i := by omega
    simp [this]

/-- A micro-step of `LOAD` before the last: the state it leaves. -/
theorem loadStep_digit {k : Fin 9} (h : k.val < 8) (r : Byte) (s : State) :
    loadStep k r s =
      respond .none { setDigit k.val (loadPattern s.cfg s.sb k.val) s with micro := .load (k + 1) r } := if_pos h

/-- The last micro-step of `LOAD`: the state it leaves. -/
theorem loadStep_last {k : Fin 9} (h : ¬ k.val < 8) (r : Byte) (s : State) :
    loadStep k r s = respond (.word (r.setWidth 32)) { s with ready := 0, micro := .idle } := if_neg h

/-- What no command and no event touches: the parameters, the cursor, the pins, the counters, the environment's turns
and the foreground's words; and it drives no pin. -/
structure ForegroundFrame (s t : State) : Prop where
  cfg : t.cfg = s.cfg
  cur : t.cur = s.cur
  pins : t.pins = s.pins
  btn : t.btn = s.btn
  ticks : t.ticks = s.ticks
  tcmp : t.tcmp = s.tcmp
  schedule : t.schedule = s.schedule
  port : t.port = s.port
  trace : t.trace = []
  level : ∀ i : Fin 5, t.db[i].state = s.db[i].state
  count : ∀ i : Fin 5, t.db[i].cnt = s.db[i].cnt

theorem respond_frame (r : Response) {s t : State} (cfg : t.cfg = s.cfg) (cur : t.cur = s.cur) (pins : t.pins = s.pins)
    (btn : t.btn = s.btn) (ticks : t.ticks = s.ticks) (tcmp : t.tcmp = s.tcmp) (schedule : t.schedule = s.schedule)
    (port : t.port = s.port) (level : ∀ i : Fin 5, t.db[i].state = s.db[i].state)
    (count : ∀ i : Fin 5, t.db[i].cnt = s.db[i].cnt) : ForegroundFrame s (respond r t) :=
  ⟨cfg, cur, pins, btn, ticks, tcmp, schedule, port, rfl, level, count⟩

theorem clearEdgeFlag_level (id i : Fin 5) (s : State) : (clearEdgeFlag id s).db[i].state = s.db[i].state := by
  rw [clearEdgeFlag_get]; split <;> rfl

theorem clearEdgeFlag_count (id i : Fin 5) (s : State) : (clearEdgeFlag id s).db[i].cnt = s.db[i].cnt := by
  rw [clearEdgeFlag_get]; split <;> rfl

theorem respond_self_frame (r : Response) (s : State) : ForegroundFrame s (respond r s) :=
  respond_frame r rfl rfl rfl rfl rfl rfl rfl rfl (fun _ => rfl) fun _ => rfl

theorem setDigit_frame (r : Response) (i : Nat) (v : Byte) (s : State) :
    ForegroundFrame s (respond r (setDigit i v s)) := by
  apply respond_frame <;> simp

theorem loadStep_frame (k : Fin 9) (r : Byte) (s : State) : ForegroundFrame s (loadStep k r s) := by
  by_cases h : k.val < 8
  · rw [loadStep_digit h]; apply respond_frame <;> simp
  · rw [loadStep_last h]; exact respond_frame _ rfl rfl rfl rfl rfl rfl rfl rfl (fun _ => rfl) fun _ => rfl

theorem clearEdgeStep_frame (id : Fin 5) (s : State) : ForegroundFrame s (clearEdgeStep id s) :=
  respond_frame _ rfl rfl rfl rfl rfl rfl rfl rfl (fun i => clearEdgeFlag_level id i s)
    fun i => clearEdgeFlag_count id i s

/-- Every command and event keeps the frame. -/
theorem exec_frame {i : Instr} {s t : State} (h : exec i s = .next t) : ForegroundFrame s t := by
  cases i with
  | nop => cases h; exact respond_self_frame _ _
  | sethex idx val =>
    simp only [exec, execSethex] at h
    split at h <;> cases h
    · exact setDigit_frame _ _ _ _
    · exact respond_self_frame _ _
  | setraw idx val =>
    simp only [exec, execSetraw] at h
    split at h <;> cases h
    · exact setDigit_frame _ _ _ _
    · exact respond_self_frame _ _
  | setbright idx =>
    simp only [exec, execSetbright] at h
    split at h <;> cases h
    · exact respond_frame _ rfl rfl rfl rfl rfl rfl rfl rfl (fun _ => rfl) fun _ => rfl
    · exact respond_self_frame _ _
  | getlevel idx =>
    simp only [exec, execGetlevel] at h
    split at h <;> cases h <;> exact respond_self_frame _ _
  | getedge idx =>
    simp only [exec, execGetedge] at h
    split at h
    · split at h
      · split at h <;> cases h
        · exact respond_frame _ rfl rfl rfl rfl rfl rfl rfl rfl (fun i => clearEdgeFlag_level _ i s)
            fun i => clearEdgeFlag_count _ i s
        · exact respond_frame _ rfl rfl rfl rfl rfl rfl rfl rfl (fun _ => rfl) fun _ => rfl
      · cases h; exact respond_self_frame _ _
    · cases h; exact respond_self_frame _ _
  | rdbtn =>
    simp only [exec, execRdbtn] at h
    split at h <;> cases h <;> exact respond_self_frame _ _
  | tickgoal imm => cases h; exact respond_self_frame _ _
  | tickreached imm => cases h; exact respond_self_frame _ _
  | load =>
    simp only [exec, execLoad] at h
    split at h
    · split at h <;> cases h
      · exact respond_self_frame _ _
      · exact loadStep_frame _ _ _
    · cases h; exact respond_self_frame _ _
  | xstart dir len => cases h; exact respond_frame _ rfl rfl rfl rfl rfl rfl rfl rfl (fun _ => rfl) fun _ => rfl
  | xdata bytes =>
    simp only [exec, execXdata] at h
    split at h <;> cases h
    · exact respond_frame _ rfl rfl rfl rfl rfl rfl rfl rfl (fun _ => rfl) fun _ => rfl
    · exact respond_self_frame _ _
  | xget => cases h; exact respond_self_frame _ _

end Sys2Proof.Machine
end

