-- ==== Sys2Proof/Laws/Memory.lean ====
section
/-! SUPPORT. The laws of the ScratchBuffer: a read after a write, and that every operation keeps the canonical form. -/

namespace Sys2Proof.Machine

open Sys2Proof

@[simp] theorem Memory.read_nil (a : Nat) : Memory.read [] a = Memory.unlisted := rfl

theorem Memory.read_cons (k : Nat) (c : Byte) (m : Memory) (a : Nat) :
    Memory.read ((k, c) :: m) a = if k = a then c else Memory.read m a := rfl

theorem Memory.wfFrom_cons {bound a : Nat} {b : Byte} {m : Memory} :
    Memory.wfFrom bound ((a, b) :: m) = true ↔
      bound ≤ a ∧ a < scratchSize ∧ b ≠ Memory.unlisted ∧ Memory.wfFrom (a + 1) m = true := by
  simp [Memory.wfFrom, and_assoc]

theorem Memory.wfFrom_mono {m : Memory} {lo hi : Nat} (h : lo ≤ hi) (hm : Memory.wfFrom hi m = true) :
    Memory.wfFrom lo m = true := by
  cases m with
  | nil => rfl
  | cons cell m =>
    obtain ⟨a, b⟩ := cell
    rw [Memory.wfFrom_cons] at hm ⊢
    exact ⟨by omega, hm.2⟩

/-- Below the bound a canonical list lists nothing. -/
theorem Memory.read_below {m : Memory} {bound a : Nat} (hm : Memory.wfFrom bound m = true) (h : a < bound) :
    Memory.read m a = Memory.unlisted := by
  induction m generalizing bound with
  | nil => rfl
  | cons cell m ih =>
    obtain ⟨k, c⟩ := cell
    rw [Memory.wfFrom_cons] at hm
    rw [Memory.read_cons, if_neg (by omega)]
    exact ih hm.2.2.2 (by omega)

/-- At and beyond the capacity a canonical list lists nothing. -/
theorem Memory.read_beyond {m : Memory} {bound a : Nat} (hm : Memory.wfFrom bound m = true) (h : scratchSize ≤ a) :
    Memory.read m a = Memory.unlisted := by
  induction m generalizing bound with
  | nil => rfl
  | cons cell m ih =>
    obtain ⟨k, c⟩ := cell
    rw [Memory.wfFrom_cons] at hm
    rw [Memory.read_cons, if_neg (by omega)]
    exact ih hm.2.2.2

theorem Memory.wfFrom_insert {m : Memory} {bound a : Nat} {b : Byte} (hm : Memory.wfFrom bound m = true)
    (hlo : bound ≤ a) (hhi : a < scratchSize) : Memory.wfFrom bound (Memory.insert m a b) = true := by
  induction m generalizing bound with
  | nil =>
    simp only [Memory.insert]
    split
    · rfl
    · next hb => exact Memory.wfFrom_cons.2 ⟨hlo, hhi, hb, rfl⟩
  | cons cell m ih =>
    obtain ⟨k, c⟩ := cell
    have hk := Memory.wfFrom_cons.1 hm
    simp only [Memory.insert]
    split
    · split
      · exact hm
      · next hak hb =>
        exact Memory.wfFrom_cons.2 ⟨hlo, hhi, hb, Memory.wfFrom_cons.2 ⟨by omega, hk.2⟩⟩
    · split
      · next hak =>
        subst hak
        split
        · exact Memory.wfFrom_mono (by omega) hk.2.2.2
        · next hb => exact Memory.wfFrom_cons.2 ⟨hlo, hhi, hb, hk.2.2.2⟩
      · exact Memory.wfFrom_cons.2 ⟨hk.1, hk.2.1, hk.2.2.1, ih hk.2.2.2 (by omega)⟩

/-- A write keeps the canonical form. -/
theorem Memory.wf_write {m : Memory} (a : Nat) (b : Byte) (hm : Memory.wf m = true) :
    Memory.wf (Memory.write m a b) = true := by
  unfold Memory.write
  split
  · next h => exact Memory.wfFrom_insert hm (Nat.zero_le _) h
  · exact hm

/-- Writing a run of bytes keeps the canonical form. -/
theorem Memory.wf_writeBytes (bs : List Byte) {m : Memory} (off : Nat) (hm : Memory.wf m = true) :
    Memory.wf (Memory.writeBytes m off bs) = true := by
  induction bs generalizing m off with
  | nil => exact hm
  | cons b bs ih => exact ih _ (Memory.wf_write off b hm)

/-- The buffer right after reset is in canonical form, whatever the parameters and the power-up values. -/
theorem Memory.wf_resetWith (cfg : Config) (pu : PowerUp) : Memory.wf (State.resetWith cfg pu).sb = true := rfl

theorem Memory.read_insert {m : Memory} {bound a : Nat} {b : Byte} (hm : Memory.wfFrom bound m = true) (x : Nat) :
    Memory.read (Memory.insert m a b) x = if x = a then b else Memory.read m x := by
  induction m generalizing bound with
  | nil =>
    simp only [Memory.insert]
    split
    · next hb => split <;> simp [*]
    · rw [Memory.read_cons]
      by_cases hx : x = a
      · simp [hx]
      · rw [if_neg hx, if_neg (Ne.symm hx)]
  | cons cell m ih =>
    obtain ⟨k, c⟩ := cell
    have hk := Memory.wfFrom_cons.1 hm
    simp only [Memory.insert]
    split
    · next hak =>
      have hbelow : Memory.read ((k, c) :: m) a = Memory.unlisted := by
        rw [Memory.read_cons, if_neg (by omega)]
        exact Memory.read_below hk.2.2.2 (by omega)
      split
      · next hb =>
        split
        · next hx => rw [hx, hbelow, hb]
        · rfl
      · rw [Memory.read_cons (k := a)]
        by_cases hx : x = a
        · simp [hx]
        · rw [if_neg hx, if_neg (Ne.symm hx)]
    · split
      · next hak =>
        subst hak
        split
        · next hb =>
          split
          · next hx => rw [hx, hb]; exact Memory.read_below hk.2.2.2 (by omega)
          · next hx => rw [Memory.read_cons, if_neg (Ne.symm hx)]
        · simp only [Memory.read_cons]
          by_cases hx : x = a
          · simp [hx]
          · rw [if_neg hx, if_neg (Ne.symm hx), if_neg (Ne.symm hx)]
      · next hlt hne =>
        simp only [Memory.read_cons, ih hk.2.2.2]
        by_cases hx : x = a
        · rw [if_pos hx, if_pos hx, if_neg (by omega)]
        · rw [if_neg hx, if_neg hx]

/-- A read after a write: the byte written at its own offset, and every other offset as before. -/
theorem Memory.read_write {m : Memory} (hm : Memory.wf m = true) (a : Nat) (b : Byte) (x : Nat) :
    Memory.read (Memory.write m a b) x = if x = a ∧ a < scratchSize then b else Memory.read m x := by
  unfold Memory.write
  split
  · next h => simp [Memory.read_insert hm, h]
  · next h => simp [h]

/-- A read after writing a run of bytes that ends within the capacity: the run's bytes at their own offsets, and every
other offset as before. -/
theorem Memory.read_writeBytes (bs : List Byte) {m : Memory} (hm : Memory.wf m = true) (off : Nat)
    (hfit : off + bs.length ≤ scratchSize) (x : Nat) :
    Memory.read (Memory.writeBytes m off bs) x =
      if h : off ≤ x ∧ x - off < bs.length then bs[x - off] else Memory.read m x := by
  induction bs generalizing m off with
  | nil => simp [Memory.writeBytes]
  | cons b bs ih =>
    simp only [List.length_cons] at hfit
    rw [Memory.writeBytes, ih (Memory.wf_write off b hm) (off + 1) (by omega), Memory.read_write hm]
    by_cases hx : x = off
    · subst hx
      rw [dif_neg (by omega), if_pos ⟨rfl, by omega⟩, dif_pos (by simp)]
      simp
    · rw [if_neg (fun h => hx h.1)]
      by_cases hin : off ≤ x ∧ x - off < (b :: bs).length
      · have hlen : (b :: bs).length = bs.length + 1 := rfl
        rw [dif_pos hin, dif_pos (by omega)]
        have : x - off = (x - (off + 1)) + 1 := by omega
        simp only [this, List.getElem_cons_succ]
      · have hlen : (b :: bs).length = bs.length + 1 := rfl
        rw [dif_neg hin, dif_neg (by omega)]

end Sys2Proof.Machine
end

