-- ==== Sys2Proof/Laws/PerInstr.lean ====
section
/-! SUPPORT. Statements for all instructions, one lemma per constructor. -/

namespace Sys2Proof.Laws.SelectedByTable

open Sys2Proof

/-- The code of an instruction's row: `op` of format C (`30_encoding.md` rule R75), `ev` of format T (rule R76). -/
def codeOf : Instr → Byte
  | .nop => 0x00
  | .sethex _ _ => 0x01
  | .setraw _ _ => 0x02
  | .setbright _ => 0x03
  | .getlevel _ => 0x04
  | .getedge _ => 0x05
  | .rdbtn => 0x06
  | .tickgoal _ => 0x07
  | .tickreached _ => 0x08
  | .load => 0x09
  | .xstart _ _ => 0x10
  | .xdata _ => 0x11
  | .xget => 0x12

/-- The encoded word is one the instruction's own row of the opcode table selects: its code, and `rsv = 0` in
format C. -/
def Statement (i : Instr) : Prop :=
  match encode i with
  | .command c => commandOp c = codeOf i ∧ commandRsv c = 0x00
  | .transport t => transportEv t = codeOf i

theorem nop : Statement .nop := by simp [Statement, encode, codeOf]
theorem sethex (idx val : Byte) : Statement (.sethex idx val) := by simp [Statement, encode, codeOf]
theorem setraw (idx val : Byte) : Statement (.setraw idx val) := by simp [Statement, encode, codeOf]
theorem setbright (idx : Byte) : Statement (.setbright idx) := by simp [Statement, encode, codeOf]
theorem getlevel (idx : Byte) : Statement (.getlevel idx) := by simp [Statement, encode, codeOf]
theorem getedge (idx : Byte) : Statement (.getedge idx) := by simp [Statement, encode, codeOf]
theorem rdbtn : Statement .rdbtn := by simp [Statement, encode, codeOf]
theorem tickgoal (imm : Count) : Statement (.tickgoal imm) := by simp [Statement, encode, codeOf]
theorem tickreached (imm : Count) : Statement (.tickreached imm) := by simp [Statement, encode, codeOf]
theorem load : Statement .load := by simp [Statement, encode, codeOf]
theorem xstart (dir : Byte) (len : BitVec 16) : Statement (.xstart dir len) := by simp [Statement, encode, codeOf]
theorem xdata (bytes : List Byte) : Statement (.xdata bytes) := by simp [Statement, encode, codeOf]
theorem xget : Statement .xget := by simp [Statement, encode, codeOf]

end Sys2Proof.Laws.SelectedByTable
end

