-- ==== Sys2Proof/Laws/Scan.lean ====
section
/-! SUPPORT. What the serial protocol and the scan step do, said once. -/

namespace Sys2Proof.Machine

open Sys2Proof

/-- Bit `i` of the shift stage after a shift. -/
theorem getLsbD_shiftIn (sr : Byte) (b : Bool) (i : Nat) (hi : i < 8) :
    (shiftIn sr b).getLsbD i = if i = 0 then b else sr.getLsbD (i - 1) := by
  unfold shiftIn
  rw [BitVec.getLsbD_append]
  by_cases h : i = 0
  · subst h; simp
  · have h1 : ¬ i < 1 := by omega
    have h2 : i - 1 < 7 := by omega
    simp [h, h1, h2]

/-- Eight shifts leave the byte sent, whatever the stage held (`41_scan_engine.md` rule R106). -/
theorem shiftIn_eight (sr b : Byte) :
    shiftIn (shiftIn (shiftIn (shiftIn (shiftIn (shiftIn (shiftIn (shiftIn sr (b.getLsbD 7)) (b.getLsbD 6))
      (b.getLsbD 5)) (b.getLsbD 4)) (b.getLsbD 3)) (b.getLsbD 2)) (b.getLsbD 1)) (b.getLsbD 0) = b := by
  apply BitVec.eq_of_getLsbD_eq
  intro i hi
  have h : i = 0 ∨ i = 1 ∨ i = 2 ∨ i = 3 ∨ i = 4 ∨ i = 5 ∨ i = 6 ∨ i = 7 := by omega
  rcases h with rfl | rfl | rfl | rfl | rfl | rfl | rfl | rfl <;>
    simp (disch := omega) only [getLsbD_shiftIn] <;> rfl

/-- What `ShiftOut(b)` does: the shift stage holds `b`, the clock is low again, `SDATA` holds the last bit sent, and
its 24 events are appended to the trace. -/
theorem shiftOut_eq (b : Byte) (s : State) :
    shiftOut b s =
      { s with
        pins := { s.pins with sdata := b.getLsbD 0, sclk := false, sr := b }
        trace := s.trace ++ shiftEvents b } := by
  have hsr := shiftIn_eight s.pins.sr b
  simp only [shiftOut, shiftOrder, List.foldl_cons, List.foldl_nil, shiftBit, emit, Pins.apply, hsr, shiftEvents,
    List.flatMap_cons, List.flatMap_nil, List.append_assoc, List.cons_append, List.nil_append]

/-- What `LatchPulse()` does: the outputs hold the shift stage, the latch line is low again, and its 2 events are
appended to the trace. -/
theorem latchPulse_eq (s : State) :
    latchPulse s =
      { s with
        pins := { s.pins with slatch := false, dsel := s.pins.sr }
        trace := s.trace ++ latchEvents } := by
  simp only [latchPulse, emit, Pins.apply, latchEvents, List.append_assoc, List.cons_append, List.nil_append]

/-- What a scan step does from a cursor below 8 (`41_scan_engine.md` rules R109, R113). -/
theorem scanStep_eq_digit (s : State) (h : s.cur.val < 8) :
    scanStep s =
      { s with
        cur := s.cur + 1
        pins :=
          { pseg := segmap s.cfg (s.dig[s.cur.val]'h)
            sdata := (selectByte s.cur.val).getLsbD 0
            sclk := false
            slatch := false
            sr := selectByte s.cur.val
            dsel := selectByte s.cur.val }
        trace := s.trace ++ scanEvents s } := by
  simp only [scanStep, advanceCursor, presentDigit, latchPulse_eq, shiftOut_eq, emit, Pins.apply, scanEvents, h,
    dif_pos, List.append_assoc, List.cons_append, List.nil_append]

/-- What a scan step does in an idle slot (`41_scan_engine.md` rules R111, R113). -/
theorem scanStep_eq_idle (s : State) (h : ¬ s.cur.val < 8) :
    scanStep s =
      { s with
        cur := s.cur + 1
        pins := { s.pins with sdata := false, sclk := false, slatch := false, sr := 0x00, dsel := 0x00 }
        trace := s.trace ++ scanEvents s } := by
  have h0 : (0x00 : Byte).getLsbD 0 = false := rfl
  simp only [scanStep, advanceCursor, presentDigit, latchPulse_eq, shiftOut_eq, scanEvents, h, h0, dif_neg,
    not_false_eq_true, List.append_assoc, List.append_nil]

/-- The scan step writes the cursor, the pins and the trace, and nothing else. -/
theorem scanStep_frame (s : State) :
    scanStep s = { s with cur := s.cur + 1, pins := (scanStep s).pins, trace := s.trace ++ scanEvents s } := by
  by_cases h : s.cur.val < 8
  · rw [scanStep_eq_digit s h]
  · rw [scanStep_eq_idle s h]

/-- The serial lines are low after a scan step. -/
theorem scanStep_lines_low (s : State) : (scanStep s).pins.sclk = false ∧ (scanStep s).pins.slatch = false := by
  by_cases h : s.cur.val < 8
  · rw [scanStep_eq_digit s h]; exact ⟨rfl, rfl⟩
  · rw [scanStep_eq_idle s h]; exact ⟨rfl, rfl⟩

/-- After a scan step the shift stage and the outputs hold the slot's select byte. -/
theorem scanStep_selects (s : State) :
    (scanStep s).pins.sr = selectOf s.cur ∧ (scanStep s).pins.dsel = selectOf s.cur := by
  unfold selectOf
  by_cases h : s.cur.val < 8
  · rw [scanStep_eq_digit s h]; simp [h]
  · rw [scanStep_eq_idle s h]; simp [h]

/-- The segment lines after a scan step. -/
theorem scanStep_pseg (s : State) :
    (scanStep s).pins.pseg = if h : s.cur.val < 8 then segmap s.cfg (s.dig[s.cur.val]'h) else s.pins.pseg := by
  by_cases h : s.cur.val < 8
  · rw [scanStep_eq_digit s h]; simp [h]
  · rw [scanStep_eq_idle s h]; simp [h]

@[simp] theorem Pins.applyAll_nil (p : Pins) : p.applyAll [] = p := rfl

@[simp] theorem Pins.applyAll_cons (p : Pins) (e : PinEvent) (es : List PinEvent) :
    p.applyAll (e :: es) = (p.apply e).applyAll es := rfl

theorem Pins.applyAll_append (p : Pins) (es fs : List PinEvent) :
    p.applyAll (es ++ fs) = (p.applyAll es).applyAll fs := by
  simp [Pins.applyAll, List.foldl_append]

end Sys2Proof.Machine
end

