-- ==== Sys2Proof/Laws/Tick.lean ====
section
/-! SUPPORT. What the tick step does, field by field (`60_exceptions.md` rule R187). -/

namespace Sys2Proof.Machine

open Sys2Proof

/-! ### Fields the scan step and the sample step leave alone -/

@[simp] theorem scanStep_cfg (s : State) : (scanStep s).cfg = s.cfg := by rw [scanStep_frame]
@[simp] theorem scanStep_dig (s : State) : (scanStep s).dig = s.dig := by rw [scanStep_frame]
@[simp] theorem scanStep_bright (s : State) : (scanStep s).bright = s.bright := by rw [scanStep_frame]
@[simp] theorem scanStep_db (s : State) : (scanStep s).db = s.db := by rw [scanStep_frame]
@[simp] theorem scanStep_btn (s : State) : (scanStep s).btn = s.btn := by rw [scanStep_frame]
@[simp] theorem scanStep_ticks (s : State) : (scanStep s).ticks = s.ticks := by rw [scanStep_frame]
@[simp] theorem scanStep_tcmp (s : State) : (scanStep s).tcmp = s.tcmp := by rw [scanStep_frame]
@[simp] theorem scanStep_sb (s : State) : (scanStep s).sb = s.sb := by rw [scanStep_frame]
@[simp] theorem scanStep_ready (s : State) : (scanStep s).ready = s.ready := by rw [scanStep_frame]
@[simp] theorem scanStep_xmax (s : State) : (scanStep s).xmax = s.xmax := by rw [scanStep_frame]
@[simp] theorem scanStep_xcnt (s : State) : (scanStep s).xcnt = s.xcnt := by rw [scanStep_frame]
@[simp] theorem scanStep_micro (s : State) : (scanStep s).micro = s.micro := by rw [scanStep_frame]
@[simp] theorem scanStep_schedule (s : State) : (scanStep s).schedule = s.schedule := by rw [scanStep_frame]
@[simp] theorem scanStep_port (s : State) : (scanStep s).port = s.port := by rw [scanStep_frame]
@[simp] theorem scanStep_resp (s : State) : (scanStep s).resp = s.resp := by rw [scanStep_frame]
@[simp] theorem scanStep_cur (s : State) : (scanStep s).cur = s.cur + 1 := by rw [scanStep_frame]
@[simp] theorem scanStep_trace (s : State) : (scanStep s).trace = s.trace ++ scanEvents s := by rw [scanStep_frame]

@[simp] theorem scanIfPresent_cfg (s : State) : (scanIfPresent s).cfg = s.cfg := by
  unfold scanIfPresent; split <;> simp
@[simp] theorem scanIfPresent_dig (s : State) : (scanIfPresent s).dig = s.dig := by
  unfold scanIfPresent; split <;> simp
@[simp] theorem scanIfPresent_bright (s : State) : (scanIfPresent s).bright = s.bright := by
  unfold scanIfPresent; split <;> simp
@[simp] theorem scanIfPresent_db (s : State) : (scanIfPresent s).db = s.db := by
  unfold scanIfPresent; split <;> simp
@[simp] theorem scanIfPresent_btn (s : State) : (scanIfPresent s).btn = s.btn := by
  unfold scanIfPresent; split <;> simp
@[simp] theorem scanIfPresent_ticks (s : State) : (scanIfPresent s).ticks = s.ticks := by
  unfold scanIfPresent; split <;> simp
@[simp] theorem scanIfPresent_tcmp (s : State) : (scanIfPresent s).tcmp = s.tcmp := by
  unfold scanIfPresent; split <;> simp
@[simp] theorem scanIfPresent_sb (s : State) : (scanIfPresent s).sb = s.sb := by
  unfold scanIfPresent; split <;> simp
@[simp] theorem scanIfPresent_ready (s : State) : (scanIfPresent s).ready = s.ready := by
  unfold scanIfPresent; split <;> simp
@[simp] theorem scanIfPresent_xmax (s : State) : (scanIfPresent s).xmax = s.xmax := by
  unfold scanIfPresent; split <;> simp
@[simp] theorem scanIfPresent_xcnt (s : State) : (scanIfPresent s).xcnt = s.xcnt := by
  unfold scanIfPresent; split <;> simp
@[simp] theorem scanIfPresent_micro (s : State) : (scanIfPresent s).micro = s.micro := by
  unfold scanIfPresent; split <;> simp
@[simp] theorem scanIfPresent_schedule (s : State) : (scanIfPresent s).schedule = s.schedule := by
  unfold scanIfPresent; split <;> simp
@[simp] theorem scanIfPresent_port (s : State) : (scanIfPresent s).port = s.port := by
  unfold scanIfPresent; split <;> simp
@[simp] theorem scanIfPresent_resp (s : State) : (scanIfPresent s).resp = s.resp := by
  unfold scanIfPresent; split <;> simp

@[simp] theorem sampleIfPresent_cfg (s : State) : (sampleIfPresent s).cfg = s.cfg := by
  unfold sampleIfPresent; split <;> simp
@[simp] theorem sampleIfPresent_dig (s : State) : (sampleIfPresent s).dig = s.dig := by
  unfold sampleIfPresent; split <;> simp
@[simp] theorem sampleIfPresent_cur (s : State) : (sampleIfPresent s).cur = s.cur := by
  unfold sampleIfPresent; split <;> simp
@[simp] theorem sampleIfPresent_bright (s : State) : (sampleIfPresent s).bright = s.bright := by
  unfold sampleIfPresent; split <;> simp
@[simp] theorem sampleIfPresent_pins (s : State) : (sampleIfPresent s).pins = s.pins := by
  unfold sampleIfPresent; split <;> simp
@[simp] theorem sampleIfPresent_btn (s : State) : (sampleIfPresent s).btn = s.btn := by
  unfold sampleIfPresent; split <;> simp
@[simp] theorem sampleIfPresent_ticks (s : State) : (sampleIfPresent s).ticks = s.ticks := by
  unfold sampleIfPresent; split <;> simp
@[simp] theorem sampleIfPresent_tcmp (s : State) : (sampleIfPresent s).tcmp = s.tcmp := by
  unfold sampleIfPresent; split <;> simp
@[simp] theorem sampleIfPresent_sb (s : State) : (sampleIfPresent s).sb = s.sb := by
  unfold sampleIfPresent; split <;> simp
@[simp] theorem sampleIfPresent_ready (s : State) : (sampleIfPresent s).ready = s.ready := by
  unfold sampleIfPresent; split <;> simp
@[simp] theorem sampleIfPresent_xmax (s : State) : (sampleIfPresent s).xmax = s.xmax := by
  unfold sampleIfPresent; split <;> simp
@[simp] theorem sampleIfPresent_xcnt (s : State) : (sampleIfPresent s).xcnt = s.xcnt := by
  unfold sampleIfPresent; split <;> simp
@[simp] theorem sampleIfPresent_micro (s : State) : (sampleIfPresent s).micro = s.micro := by
  unfold sampleIfPresent; split <;> simp
@[simp] theorem sampleIfPresent_schedule (s : State) : (sampleIfPresent s).schedule = s.schedule := by
  unfold sampleIfPresent; split <;> simp
@[simp] theorem sampleIfPresent_port (s : State) : (sampleIfPresent s).port = s.port := by
  unfold sampleIfPresent; split <;> simp
@[simp] theorem sampleIfPresent_resp (s : State) : (sampleIfPresent s).resp = s.resp := by
  unfold sampleIfPresent; split <;> simp
@[simp] theorem sampleIfPresent_trace (s : State) : (sampleIfPresent s).trace = s.trace := by
  unfold sampleIfPresent; split <;> simp

/-! ### The tick step -/

@[simp] theorem tickStep_cfg (btn : BitVec 5) (s : State) : (tickStep btn s).cfg = s.cfg := by simp [tickStep]
@[simp] theorem tickStep_dig (btn : BitVec 5) (s : State) : (tickStep btn s).dig = s.dig := by simp [tickStep]
@[simp] theorem tickStep_bright (btn : BitVec 5) (s : State) : (tickStep btn s).bright = s.bright := by simp [tickStep]
@[simp] theorem tickStep_sb (btn : BitVec 5) (s : State) : (tickStep btn s).sb = s.sb := by simp [tickStep]
@[simp] theorem tickStep_ready (btn : BitVec 5) (s : State) : (tickStep btn s).ready = s.ready := by simp [tickStep]
@[simp] theorem tickStep_xmax (btn : BitVec 5) (s : State) : (tickStep btn s).xmax = s.xmax := by simp [tickStep]
@[simp] theorem tickStep_xcnt (btn : BitVec 5) (s : State) : (tickStep btn s).xcnt = s.xcnt := by simp [tickStep]
@[simp] theorem tickStep_micro (btn : BitVec 5) (s : State) : (tickStep btn s).micro = s.micro := by simp [tickStep]
@[simp] theorem tickStep_schedule (btn : BitVec 5) (s : State) : (tickStep btn s).schedule = s.schedule := by simp [tickStep]
@[simp] theorem tickStep_port (btn : BitVec 5) (s : State) : (tickStep btn s).port = s.port := by simp [tickStep]
@[simp] theorem tickStep_btn (btn : BitVec 5) (s : State) : (tickStep btn s).btn = btn := by simp [tickStep]
@[simp] theorem tickStep_ticks (btn : BitVec 5) (s : State) : (tickStep btn s).ticks = s.ticks + 1 := by simp [tickStep]
@[simp] theorem tickStep_tcmp (btn : BitVec 5) (s : State) : (tickStep btn s).tcmp = s.tcmp + s.cfg.tickInterval := by simp [tickStep]
@[simp] theorem tickStep_resp (btn : BitVec 5) (s : State) : (tickStep btn s).resp = .none := by simp [tickStep]

theorem scanIfPresent_present {btn : BitVec 5} {s : State} (h : s.cfg.hasScan = true) :
    scanIfPresent (takeTick btn s) = scanStep (takeTick btn s) := if_pos h

theorem scanIfPresent_absent {btn : BitVec 5} {s : State} (h : ¬ s.cfg.hasScan = true) :
    scanIfPresent (takeTick btn s) = takeTick btn s := if_neg h

/-- The cursor after a tick. -/
theorem tickStep_cur (btn : BitVec 5) (s : State) :
    (tickStep btn s).cur = if s.cfg.hasScan then s.cur + 1 else s.cur := by
  rw [tickStep, returnFromTick_eq, sampleIfPresent_cur]
  by_cases h : s.cfg.hasScan = true
  · rw [scanIfPresent_present h, if_pos h]; simp
  · rw [scanIfPresent_absent h, if_neg h]; simp

/-- The pins after a tick. -/
theorem tickStep_pins (btn : BitVec 5) (s : State) :
    (tickStep btn s).pins = if s.cfg.hasScan then (scanStep (takeTick btn s)).pins else s.pins := by
  rw [tickStep, returnFromTick_eq, sampleIfPresent_pins]
  by_cases h : s.cfg.hasScan = true
  · rw [scanIfPresent_present h, if_pos h]
  · rw [scanIfPresent_absent h, if_neg h]; simp

/-- The pin trace of a tick. -/
theorem tickStep_trace (btn : BitVec 5) (s : State) :
    (tickStep btn s).trace = if s.cfg.hasScan then scanEvents (takeTick btn s) else [] := by
  rw [tickStep, returnFromTick_eq, sampleIfPresent_trace]
  by_cases h : s.cfg.hasScan = true
  · rw [scanIfPresent_present h, if_pos h]; simp
  · rw [scanIfPresent_absent h, if_neg h]; simp

/-- The DebounceState of input `i` after a tick. -/
theorem tickStep_db (btn : BitVec 5) (s : State) (i : Fin 5) :
    (tickStep btn s).db[i] =
      if s.cfg.hasDebounce then debounceStep s.cfg.debounceMode (buttonSample btn i) s.db[i] else s.db[i] := by
  rw [tickStep, returnFromTick_eq]
  by_cases h : s.cfg.hasDebounce = true
  · rw [sampleIfPresent, if_pos (by simpa using h), if_pos h, sampleStep_get]; simp [sampleInput]
  · rw [sampleIfPresent, if_neg (by simpa using h), if_neg h]; simp

end Sys2Proof.Machine
end

