-- ==== Sys2Proof/Laws/Step.lean ====
section
/-! SUPPORT. What one step can do, said once: an equation per kind of step, and the inversion lemma. -/

namespace Sys2Proof.Machine

open Sys2Proof

/-- A tick's turn runs the tick step. -/
theorem step_eq_tick {s : State} {btn : BitVec 5} (h : nextTurn s = .tick btn) :
    step s = .next (tickStep btn (dropTurn s)) := by
  rw [step, h]; rfl

/-- The foreground's turn with a `LOAD` in progress runs its next micro-step. -/
theorem step_eq_load {s : State} {k : Fin 9} {r : Byte} (h : nextTurn s = .foreground) (hm : s.micro = .load k r) :
    step s = .next (loadStep k r (dropTurn s)) := by
  rw [step, h]; simp [agentStep, foregroundStep, hm]

/-- The foreground's turn with a `GETEDGE` in progress clears the flag. -/
theorem step_eq_clearEdge {s : State} {id : Fin 5} (h : nextTurn s = .foreground) (hm : s.micro = .clearEdge id) :
    step s = .next (clearEdgeStep id (dropTurn s)) := by
  rw [step, h]; simp [agentStep, foregroundStep, hm]

/-- The foreground's turn with nothing to do changes nothing. -/
theorem step_eq_idle {s : State} (h : nextTurn s = .foreground) (hm : s.micro = .idle) (hp : s.port = []) :
    step s = .next (respond .none (dropTurn s)) := by
  rw [step, h]; simp [agentStep, foregroundStep, hm, hp]

/-- The foreground's turn with a word to present accepts it. -/
theorem step_eq_accept {s : State} {w : PortWord} {rest : List PortWord} (h : Presents s w rest) :
    step s = acceptWord w { dropTurn s with port := rest } := by
  obtain ⟨ht, hm, hp⟩ := h
  rw [step, ht]; simp [agentStep, foregroundStep, hm, hp]

/-- A step is a tick, a micro-step, an idle step, an illegal word, or an instruction. -/
theorem step_cases (s : State) :
    (∃ btn, nextTurn s = .tick btn ∧ step s = .next (tickStep btn (dropTurn s))) ∨
    (∃ k r, nextTurn s = .foreground ∧ s.micro = .load k r ∧ step s = .next (loadStep k r (dropTurn s))) ∨
    (∃ id, nextTurn s = .foreground ∧ s.micro = .clearEdge id ∧ step s = .next (clearEdgeStep id (dropTurn s))) ∨
    (nextTurn s = .foreground ∧ s.micro = .idle ∧ s.port = [] ∧ step s = .next (respond .none (dropTurn s))) ∨
    (∃ w rest why, Presents s w rest ∧ decode w = .illegal why ∧
      step s = .next (illegalWord w { dropTurn s with port := rest })) ∨
    (∃ w rest i, Presents s w rest ∧ decode w = .instr i ∧ step s = exec i { dropTurn s with port := rest }) := by
  cases ht : nextTurn s with
  | tick btn => exact .inl ⟨btn, rfl, step_eq_tick ht⟩
  | foreground =>
    right
    cases hm : s.micro with
    | load k r => exact .inl ⟨k, r, rfl, rfl, step_eq_load ht hm⟩
    | clearEdge id => exact .inr (.inl ⟨id, rfl, rfl, step_eq_clearEdge ht hm⟩)
    | idle =>
      refine .inr (.inr ?_)
      cases hp : s.port with
      | nil => exact .inl ⟨rfl, rfl, rfl, step_eq_idle ht hm hp⟩
      | cons w rest =>
        have hpres : Presents s w rest := ⟨ht, hm, hp⟩
        refine .inr ?_
        cases hd : decode w with
        | illegal why =>
          refine .inl ⟨w, rest, why, hpres, hd, ?_⟩
          rw [step_eq_accept hpres, acceptWord, hd]
        | instr i =>
          refine .inr ⟨w, rest, i, hpres, hd, ?_⟩
          rw [step_eq_accept hpres, acceptWord, hd]

end Sys2Proof.Machine
end

