-- ==== Sys2Proof/Laws/Run.lean ====
section
/-! SUPPORT. Runs of several steps: one step at a time, what every step does to the environment's turns, and the
induction over the turns packaged once. -/

namespace Sys2Proof.Machine

open Sys2Proof

@[simp] theorem runSteps_zero (s : State) : runSteps 0 s = .next s := rfl

/-- A run whose first step answers `t` goes on from `t`. -/
theorem runSteps_succ {s t : State} (n : Nat) (h : step s = .next t) : runSteps (n + 1) s = runSteps n t := by
  have hstep : Sys2Proof.core.step s = .next t := h
  show Host.Core.run Sys2Proof.core (n + 1) s = Host.Core.run Sys2Proof.core n t
  simp only [Host.Core.run]
  rw [hstep]

/-- A run in two parts. -/
theorem runSteps_add {s t : State} (m n : Nat) (h : runSteps m s = .next t) : runSteps (m + n) s = runSteps n t := by
  induction m generalizing s with
  | zero =>
    cases h
    rw [Nat.zero_add]
  | succ m ih =>
    rw [Nat.add_right_comm]
    have hm : Host.Core.run Sys2Proof.core (m + 1) s = .next t := h
    simp only [Host.Core.run] at hm
    cases hs : step s with
    | next u =>
      have hu : Sys2Proof.core.step s = .next u := hs
      rw [hu] at hm
      rw [runSteps_succ _ hs]
      exact ih hm
    | fault r => exact nomatch r
    | refused r =>
      have hr : Sys2Proof.core.step s = .refused r := hs
      rw [hr] at hm
      cases hm

/-- The turn a state takes when its schedule names one. -/
theorem nextTurn_of_schedule {s : State} {turn : Turn} {turns : List Turn} (h : s.schedule = turn :: turns) :
    nextTurn s = turn := by
  simp [nextTurn, h]

/-- The induction over the environment's turns, once: a property of the state and the turns still to come that each
step carries over holds after the run. -/
theorem run_invariant (I : State → List Turn → Prop) (more : List Turn)
    (hstep : ∀ (s : State) (turn : Turn) (turns : List Turn), s.schedule = turn :: (turns ++ more) →
      I s (turn :: turns) → ∃ t, step s = .next t ∧ t.schedule = turns ++ more ∧ I t turns) :
    ∀ (turns : List Turn) (s : State), s.schedule = turns ++ more → I s turns →
      ∃ t, runSteps turns.length s = .next t ∧ t.schedule = more ∧ I t []
  | [], s, hs, hI => ⟨s, rfl, hs, hI⟩
  | turn :: turns, s, hs, hI => by
    obtain ⟨t, ht, hts, htI⟩ := hstep s turn turns hs hI
    obtain ⟨u, hu, hus, huI⟩ := run_invariant I more hstep turns t hts htI
    exact ⟨u, by rw [List.length_cons, runSteps_succ _ ht]; exact hu, hus, huI⟩

end Sys2Proof.Machine
end

