-- ==== Sys2Proof/Tests/Slice0.lean ====
section
/-! SUPPORT. The model's own tests: ill-formed terms refused, words written out from `30_encoding.md`, the vectors of
`95_test_vectors.md` one step at a time, and a witness for the hypotheses of every statement that has some. -/

namespace Sys2Proof.Tests

open Sys2Proof Sys2Proof.Machine

set_option maxRecDepth 4000

/-- The state a step or an instruction answers, if it answers one. -/
def ended (o : Host.Outcome State Fault Refusal) : Option State :=
  match o with
  | .next t => some t
  | .fault _ => none
  | .refused _ => none

/-- A build with the scan engine alone. -/
def scanOnly : Config := { Config.default with hasDebounce := false }

/-- A build with the button sampler alone. -/
def debounceOnly : Config := { Config.default with hasScan := false }

/-- A build whose `GETEDGE` is two micro-steps. -/
def splitGetedge : Config := { Config.default with getedgeAtomic := false }

/-- A build whose segment lines are wired in reverse order. -/
def reversedLines : Config := { Config.default with segmap := #v[7, 6, 5, 4, 3, 2, 1, 0] }

/-- The state after reset with the environment's next turns given. -/
def withTurns (turns : List Turn) : State := { State.reset with schedule := turns }

/-- The state after reset with the foreground about to present `w`. -/
def presenting (w : PortWord) : State := { State.reset with port := [w] }

/-- The state after reset with the debounce fields of the inputs given. -/
def withInputs (db : Vector DebounceState 5) : State := { State.reset with db := db }

/-- A released input. -/
def low : DebounceState := { state := false, cnt := 0, edge := false }

/-- A pressed input whose edge is unread. -/
def risen : DebounceState := { state := true, cnt := 0, edge := true }

/-- The scratchpad of vector B15, with its transfer complete. -/
def loaded : State :=
  { State.reset with
    sb := [(1, 0x3F), (2, 0x06), (3, 0x5B), (4, 0x4F), (5, 0x66), (6, 0x6D), (7, 0x7D), (8, 0x07)]
    ready := 9
    xmax := 9 }

/-- The display of vector H4 with the cursor at `c`. -/
def displayAt (c : Fin 12) : State :=
  { State.reset with
    cur := c
    dig := #v[0x3F, 0x06, 0x5B, 0x4F, 0x66, 0x6D, 0x7D, 0x07]
    pins := { pseg := 0xEE, sdata := false, sclk := false, slatch := false, sr := 0x80, dsel := 0x80 } }

/-! ### Ill-formed terms -/

theorem test_wellFormed_refuses_nine_bytes : (Instr.xdata [1, 2, 3, 4, 5, 6, 7, 8, 9]).wellFormed = false := by decide
theorem test_wellFormed_takes_eight_bytes : (Instr.xdata [1, 2, 3, 4, 5, 6, 7, 8]).wellFormed = true := by decide
theorem test_config_refuses_repeated_line :
    ({ Config.default with segmap := #v[0, 1, 2, 3, 4, 5, 6, 6] } : Config).wf = false := by decide
theorem test_memory_refuses_falling_offsets : Memory.wf [(2, 0x01), (1, 0x01)] = false := by decide
theorem test_memory_refuses_repeated_offset : Memory.wf [(2, 0x01), (2, 0x05)] = false := by decide
theorem test_memory_refuses_listed_zero : Memory.wf [(2, 0x00)] = false := by decide
theorem test_memory_refuses_offset_255 : Memory.wf [(255, 0x01)] = false := by decide
theorem test_memory_takes_offset_254 : Memory.wf [(0, 0x01), (254, 0x01)] = true := by decide

/-! ### Decoding: words written out from the tables of rules R71, R72, R75, R76 (R82, E1 to E12) -/

theorem test_decode_nop : decode (.command 0x0000000000000000) = .instr .nop := by decide
theorem test_decode_sethex : decode (.command 0x01031A0000000000) = .instr (.sethex 3 0x1A) := by decide
theorem test_decode_setraw : decode (.command 0x0207FF0000000000) = .instr (.setraw 7 0xFF) := by decide
theorem test_decode_setraw_index_8 : decode (.command 0x0208FF0000000000) = .instr (.setraw 8 0xFF) := by decide
theorem test_decode_setbright : decode (.command 0x0302000000000000) = .instr (.setbright 2) := by decide
theorem test_decode_getlevel : decode (.command 0x0404000000000000) = .instr (.getlevel 4) := by decide
theorem test_decode_getedge : decode (.command 0x0502000000000000) = .instr (.getedge 2) := by decide
theorem test_decode_rdbtn : decode (.command 0x0600000000000000) = .instr .rdbtn := by decide
theorem test_decode_tickgoal : decode (.command 0x0700000080000000) = .instr (.tickgoal 0x80000000) := by decide
theorem test_decode_tickreached : decode (.command 0x08000000FFFFFFF0) = .instr (.tickreached 0xFFFFFFF0) := by decide
theorem test_decode_load : decode (.command 0x0900000000000000) = .instr .load := by decide
theorem test_decode_xstart : decode (.transport 0x1000000000000000012C) = .instr (.xstart 0 300) := by decide
theorem test_decode_xstart_get : decode (.transport 0x10010000000000000009) = .instr (.xstart 1 9) := by decide
theorem test_decode_xdata :
    decode (.transport 0x11080807060504030201) = .instr (.xdata [1, 2, 3, 4, 5, 6, 7, 8]) := by decide
theorem test_decode_xdata_three : decode (.transport 0x11030000000000063F00) = .instr (.xdata [0x00, 0x3F, 0x06]) := by
  decide
theorem test_decode_xdata_empty : decode (.transport 0x11000000000000000000) = .instr (.xdata []) := by decide
theorem test_decode_xget : decode (.transport 0x12000000000000000000) = .instr .xget := by decide
/-- E3: unused fields are ignored. -/
theorem test_decode_ignores_unused_fields : decode (.command 0x06FFFF00FFFFFFFF) = .instr .rdbtn := by decide
/-- E4, E5. -/
theorem test_decode_first_reserved_opcode : decode (.command 0x0A00000000000000) = .illegal (.reservedOpcode 0x0A) := by
  decide
theorem test_decode_last_reserved_opcode : decode (.command 0xFF00000000000000) = .illegal (.reservedOpcode 0xFF) := by
  decide
/-- E6. -/
theorem test_decode_reserved_field : decode (.command 0x0100000100000000) = .illegal (.reservedField 0x01) := by decide
/-- E8, E9. -/
theorem test_decode_reserved_event : decode (.transport 0x13000000000000000000) = .illegal (.reservedEvent 0x13) := by
  decide
theorem test_decode_event_zero : decode (.transport 0x00000000000000000000) = .illegal (.reservedEvent 0x00) := by decide
/-- E10. -/
theorem test_decode_nine_bytes : decode (.transport 0x11090000000000000000) = .illegal (.chunkTooLong 9) := by decide

/-- Programs P3 and P5: the words of the spec's own statements. -/
theorem test_encode_xdata :
    encode (.xdata [0x00, 0x3F, 0x06, 0x5B, 0x4F, 0x66, 0x6D, 0x7D]) = .transport 0x11087D6D664F5B063F00 := by decide
theorem test_encode_last_chunk :
    encode (.xdata [0xF8, 0xF9, 0xFA, 0xFB, 0xFC, 0xFD, 0xFE, 0xFF]) = .transport 0x1108FFFEFDFCFBFAF9F8 := by decide

/-- `XWRITE` of 9 bytes is the three statements of program P3 (`30_encoding.md` rule R81). -/
theorem test_xwrite_expansion :
    xwrite [0x00, 0x3F, 0x06, 0x5B, 0x4F, 0x66, 0x6D, 0x7D, 0x07] =
      [.xstart 0 9, .xdata [0x00, 0x3F, 0x06, 0x5B, 0x4F, 0x66, 0x6D, 0x7D], .xdata [0x07]] := by decide

/-- Words as the opcode table numbers them: 64 bits on the command port, 80 on the transport port, no longer word. -/
theorem test_table_word_command : decodeTableWord 64 0x01031A0000000000 = some (.sethex 3 0x1A) := by decide
theorem test_table_word_transport : decodeTableWord 80 0x1000000000000000012C = some (.xstart 0 300) := by decide
theorem test_table_word_too_long : decodeTableWord 88 0x12000000000000000000 = none := by decide
theorem test_table_word_illegal : decodeTableWord 64 0x0A00000000000000 = none := by decide

/-- A placed word is what the step after reset runs. -/
theorem test_placed_sethex_runs :
    (ended (step (State.reset.withFetchWord 64 0x01031A0000000000))).map (·.dig[3]) = some 0xF7 := by decide
theorem test_placed_xstart_runs :
    (ended (step (State.reset.withFetchWord 80 0x1000000000000000012C))).map (·.xmax) = some 255 := by decide

/-! ### Illegal commands (E4, E10, E13) -/

theorem test_illegal_opcode_answers_zero :
    (ended (step (presenting (.command 0x0A00000000000000)))).map (fun t => (t.resp, t.dig)) =
      some (.word 0, State.reset.dig) := by decide
theorem test_illegal_chunk_counts_nothing :
    (ended (step (presenting (.transport 0x11090000000000000000)))).map (fun t => (t.resp, t.xcnt)) =
      some (.none, 0) := by decide
theorem test_absent_family_writes_nothing :
    (ended (step { presenting (.command 0x0100010000000000) with cfg := debounceOnly })).map (fun t => (t.resp, t.dig)) =
      some (.word 0, State.reset.dig) := by decide

/-! ### The scan family's commands (S1 to S16) -/

/-- S3: the decimal point. -/
theorem test_sethex_decimal_point :
    (ended (exec (.sethex 1 0x12) State.reset)).map (fun t => (t.dig[1], t.resp)) = some (0xDB, .word 0) := by decide
/-- S6: bits 7:5 of the value are ignored. -/
theorem test_sethex_ignores_high_bits : (ended (exec (.sethex 2 0xE8) State.reset)).map (·.dig[2]) = some 0x7F := by
  decide
/-- S12: the first index out of range. -/
theorem test_setraw_out_of_range : (ended (exec (.setraw 8 0xFF) State.reset)).map (·.dig) = some State.reset.dig := by
  decide
/-- S10. -/
theorem test_setraw_last_digit :
    (ended (exec (.setraw 7 0xFF) State.reset)).map (·.dig) = some #v[0, 0, 0, 0, 0, 0, 0, 0xFF] := by decide
/-- S15: no range check, nothing else changes. -/
theorem test_setbright_verbatim :
    (ended (exec (.setbright 200) State.reset)).map (fun t => (t.bright, t.dig, t.pins)) =
      some (200, State.reset.dig, State.reset.pins) := by decide

/-! ### The serial protocol and the scan step (H1 to H10) -/

/-- H1: the shift stage after each rising clock edge of `ShiftOut(0x04)`. -/
theorem test_shift_stage :
    [0, 1, 2, 3, 4, 5, 6, 7].map (fun n =>
      (({ pseg := 0, sdata := false, sclk := false, slatch := false, sr := 0xA5, dsel := 0x80 } : Pins).applyAll
        ((shiftEvents 0x04).take (3 * n + 2))).sr) =
      [0x4A, 0x94, 0x28, 0x50, 0xA0, 0x41, 0x82, 0x04] := by decide
/-- H1, H2: the latched outputs change at the latch pulse alone. -/
theorem test_latch_commits :
    (({ pseg := 0, sdata := false, sclk := false, slatch := false, sr := 0xA5, dsel := 0x80 } : Pins).applyAll
      (shiftEvents 0x04)).dsel = 0x80 ∧
    (({ pseg := 0, sdata := false, sclk := false, slatch := false, sr := 0xA5, dsel := 0x80 } : Pins).applyAll
      (shiftEvents 0x04 ++ latchEvents)).dsel = 0x04 := by decide
/-- H4, row 0. -/
theorem test_scan_first_digit :
    (scanStep (displayAt 0)).pins =
      { pseg := 0x3F, sdata := true, sclk := false, slatch := false, sr := 0x01, dsel := 0x01 } ∧
    (scanStep (displayAt 0)).cur = 1 := by decide
/-- H4, row 7. -/
theorem test_scan_last_digit :
    (scanStep (displayAt 7)).pins =
      { pseg := 0x07, sdata := false, sclk := false, slatch := false, sr := 0x80, dsel := 0x80 } ∧
    (scanStep (displayAt 7)).cur = 8 := by decide
/-- H4, row 11: an idle slot, and the cursor wraps. -/
theorem test_scan_idle_slot :
    (scanStep (displayAt 11)).pins =
      { pseg := 0xEE, sdata := false, sclk := false, slatch := false, sr := 0x00, dsel := 0x00 } ∧
    (scanStep (displayAt 11)).cur = 0 := by decide
/-- H5: the groups of the trace from `CUR = 2`. -/
theorem test_scan_trace_length :
    (scanStep (displayAt 2)).trace.length = 53 ∧ (scanStep (displayAt 9)).trace.length = 26 := by decide
theorem test_scan_trace_middle :
    ((scanStep (displayAt 2)).trace.drop 24).take 6 =
      [.lat true, .lat false, .seg 0x5B, .data false, .clk true, .clk false] := by decide
theorem test_scan_trace_select_bit :
    ((scanStep (displayAt 2)).trace.drop 42).take 6 =
      [.data true, .clk true, .clk false, .data false, .clk true, .clk false] := by decide
/-- H10: reversed segment lines. -/
theorem test_segmap_reversed :
    segmap reversedLines 0x5B = 0xDA ∧ segmap reversedLines 0x01 = 0x80 ∧ segmap reversedLines 0x00 = 0x00 ∧
      segmap reversedLines 0xFF = 0xFF := by decide
/-- `00_scope.md` rule R4: an output asserted low reads inverted at the pin. -/
theorem test_physical_levels :
    physicalSelects { displayAt 0 with cfg := { Config.default with dselPol := false } } = 0x7F ∧
      physicalSegments { displayAt 0 with cfg := { Config.default with segPol := false } } = 0x11 := by decide

/-! ### The tick step (X1 to X4) -/

/-- X1. -/
theorem test_first_tick :
    (ended (step (withTurns [.tick 0b11111]))).map (fun t => (t.ticks, t.cur, t.pins.dsel, t.pins.pseg, t.db)) =
      some (1, 1, 0x01, 0x00, State.reset.db) := by decide
/-- X2: no scan engine, so no pin event and no cursor. -/
theorem test_tick_without_scan :
    (ended (step { withTurns [.tick 0b11110] with cfg := debounceOnly })).map
      (fun t => (t.ticks, t.cur, t.trace, t.db[0].cnt)) = some (1, 0, [], 1) := by decide
/-- X3: no sampler, so the pins are not read. -/
theorem test_tick_without_debounce :
    (ended (step { withTurns [.tick 0b00000] with cfg := scanOnly })).map (fun t => (t.cur, t.db)) =
      some (1, State.reset.db) := by decide
/-- X4: the counter wraps. -/
theorem test_tick_counter_wraps :
    (ended (step { withTurns [.tick 0b11111] with ticks := 0xFFFFFFFF, cur := 3 })).map (fun t => (t.ticks, t.cur)) =
      some (0, 4) := by decide

/-! ### The debouncer (DB1 to DB11, Q1 to Q16) -/

/-- DB9. -/
theorem test_debounce_tenth_sample :
    debounceStep .returnToZero true { state := false, cnt := 9, edge := false } = risen := by decide
/-- DB10, DB11. -/
theorem test_debounce_fall :
    debounceStep .returnToZero true { state := true, cnt := 9, edge := false } =
        { state := true, cnt := 0, edge := false } ∧
      debounceStep .returnToZero false { state := true, cnt := 9, edge := true } =
        { state := false, cnt := 0, edge := true } := by decide
/-- The other reading of `93_implementation_defined.md` U3. -/
theorem test_debounce_count_down :
    (debounceStep .countDown false { state := false, cnt := 5, edge := false }).cnt = 4 ∧
      (debounceStep .countDown false { state := false, cnt := 0, edge := false }).cnt = 0 := by decide
/-- Q13: pins 0, 2 and 4 low at the tenth tick. -/
theorem test_sample_five_inputs :
    (ended (step { withTurns [.tick 0b01010] with
      db := #v[{ low with cnt := 9 }, low, { low with cnt := 9 }, low, { low with cnt := 9 }] })).map (·.db) =
      some #v[risen, low, risen, low, risen] := by decide
/-- Q1, Q2. -/
theorem test_getlevel_valid :
    (ended (exec (.getlevel 1) (withInputs #v[low, risen, low, low, low]))).map (·.resp) = some (.word 1) ∧
      (ended (exec (.getlevel 0) (withInputs #v[low, risen, low, low, low]))).map (·.resp) = some (.word 0) := by decide
/-- Q3, Q4. -/
theorem test_getlevel_last_and_first_invalid :
    (ended (exec (.getlevel 4) (withInputs #v[risen, risen, risen, risen, risen]))).map (·.resp) = some (.word 1) ∧
      (ended (exec (.getlevel 5) (withInputs #v[risen, risen, risen, risen, risen]))).map (·.resp) = some (.word 0) := by
  decide
/-- Q6. -/
theorem test_getedge_reads_and_clears :
    (ended (exec (.getedge 2) (withInputs #v[low, low, risen, low, risen]))).map (fun t => (t.resp, t.db)) =
      some (.word 1, #v[low, low, { risen with edge := false }, low, risen]) := by decide
/-- Q8. -/
theorem test_getedge_invalid_id :
    (ended (exec (.getedge 5) (withInputs #v[risen, risen, risen, risen, risen]))).map (fun t => (t.resp, t.db)) =
      some (.word 0, #v[risen, risen, risen, risen, risen]) := by decide
/-- Q16: micro-step 2 clears a flag that was set in the gap. -/
theorem test_split_getedge_loses_the_edge :
    (ended (step { withInputs #v[risen, low, low, low, low] with cfg := splitGetedge, micro := .clearEdge 0 })).map
      (fun t => (t.db[0], t.micro)) = some ({ risen with edge := false }, .idle) := by decide
/-- Q11. -/
theorem test_rdbtn_up_and_down :
    (ended (exec .rdbtn (withInputs #v[risen, low, low, risen, low]))).map (·.resp) = some (.word 0x09) := by decide
/-- Q12. -/
theorem test_rdbtn_left :
    (ended (exec .rdbtn (withInputs #v[low, low, low, low, risen]))).map (fun t => (t.resp, t.db[4])) =
      some (.word 0x10, risen) := by decide

/-! ### The tick helpers (K1 to K15) -/

theorem test_nop : (ended (exec .nop State.reset)).map (·.resp) = some (.word 0) := by decide
/-- K3. -/
theorem test_tickgoal_wraps :
    (ended (exec (.tickgoal 0x20) { State.reset with ticks := 0xFFFFFFF0 })).map (·.resp) = some (.word 0x10) := by decide
/-- K5. -/
theorem test_tickgoal_negative_delta :
    (ended (exec (.tickgoal 0xFFFFFFFF) { State.reset with ticks := 5 })).map (·.resp) = some (.word 4) := by decide
/-- K6, K7. -/
theorem test_tickreached_across_the_wrap :
    (ended (exec (.tickreached 0xFFFFFFF0) { State.reset with ticks := 0x10 })).map (·.resp) = some (.word 1) ∧
      (ended (exec (.tickreached 0x10) { State.reset with ticks := 0xFFFFFFF0 })).map (·.resp) = some (.word 0) := by
  decide
/-- K10, K11. -/
theorem test_tickreached_window_edge :
    (ended (exec (.tickreached 0) { State.reset with ticks := 0x7FFFFFFF })).map (·.resp) = some (.word 1) ∧
      (ended (exec (.tickreached 0) { State.reset with ticks := 0x80000000 })).map (·.resp) = some (.word 0) := by decide

/-! ### The bridge (B1 to B18) -/

/-- B1. -/
theorem test_xstart_clamps :
    ([0, 1, 254, 255, 256, 300, 65535].map fun len =>
      (ended (exec (.xstart 0 len) { State.reset with xcnt := 7 })).map (fun t => (t.xmax, t.xcnt))) =
      [some (0, 0), some (1, 0), some (254, 0), some (255, 0), some (255, 0), some (255, 0), some (255, 0)] := by decide
/-- B3: the last chunk of a clamped transfer drops its eighth byte. -/
theorem test_xdata_last_chunk :
    (ended (exec (.xdata [0xAA, 0xAA, 0xAA, 0xAA, 0xAA, 0xAA, 0xAA, 0xBB])
      { State.reset with xmax := 255, xcnt := 31 })).map (fun t => (t.sb, t.xcnt, t.ready)) =
      some ([(248, 0xAA), (249, 0xAA), (250, 0xAA), (251, 0xAA), (252, 0xAA), (253, 0xAA), (254, 0xAA)], 32, 255) := by
  decide
/-- B5: the second chunk lands at offset 8 after a short first one. -/
theorem test_xdata_after_short_chunk :
    (ended (exec (.xdata [0x04, 0x05, 0x06, 0x07, 0x08, 0x09, 0x0A, 0x0B])
      { State.reset with sb := [(0, 0x01), (1, 0x02), (2, 0x03)], xmax := 12, xcnt := 1 })).map
      (fun t => (t.sb, t.ready)) =
      some ([(0, 0x01), (1, 0x02), (2, 0x03), (8, 0x04), (9, 0x05), (10, 0x06), (11, 0x07)], 12) := by decide
/-- B11. -/
theorem test_xget_returns_buffer :
    (ended (exec .xget { State.reset with sb := [(1, 0x3F), (2, 0x06), (3, 0x5B)], xmax := 4 })).map (·.resp) =
      some (.bytes [0x00, 0x3F, 0x06, 0x5B]) := by decide
/-- B14. -/
theorem test_load_not_ready :
    (ended (exec .load { State.reset with dig := #v[1, 2, 3, 4, 5, 6, 7, 8] })).map
      (fun t => (t.resp, t.dig, t.micro)) = some (.word 0, #v[1, 2, 3, 4, 5, 6, 7, 8], .idle) := by decide
/-- B15: the first micro-step writes digit 0 from offset 1. -/
theorem test_load_first_micro_step :
    (ended (exec .load loaded)).map (fun t => (t.dig, t.micro, t.ready)) =
      some (#v[0x3F, 0, 0, 0, 0, 0, 0, 0], .load 1 9, 9) := by decide
/-- B15: the last micro-step answers the old `READY`. -/
theorem test_load_last_micro_step :
    (ended (step { loaded with micro := .load 8 9 })).map (fun t => (t.resp, t.ready, t.micro)) =
      some (.word 9, 0, .idle) := by decide
/-- B16, B17: the nibble order of a packed load, never with a decimal point. -/
theorem test_packed_load :
    [0, 1, 6, 7].map (loadPattern { Config.default with loadMode := .packedHex }
      [(1, 0xFF), (3, 0xA9), (4, 0x1E)]) = [0x71, 0x71, 0x79, 0x06] := by decide
/-- Writing the unlisted byte removes the cell. -/
theorem test_memory_write_zero_removes : Memory.write [(2, 0x01), (3, 0x05)] 2 0x00 = [(3, 0x05)] := by decide

/-! ### Witnesses: states and operands that meet the hypotheses of the statements -/

/-- The state after reset with the foreground's `LOAD` presented and the transfer of B15 complete. -/
def loadPresented : State := { loaded with port := [.command 0x0900000000000000] }

theorem witness_DecodeInvertsEncode : (Instr.xdata [1, 2, 3, 4, 5, 6, 7, 0xFF]).wellFormed = true := by decide

/-- One word for each clause, every unused bit set. -/
theorem witness_CommandRowsSelectedByOpcode :
    [0x00FFFF00FFFFFFFF, 0x01FFFF00FFFFFFFF, 0x02FFFF00FFFFFFFF, 0x03FFFF00FFFFFFFF, 0x04FFFF00FFFFFFFF,
      0x05FFFF00FFFFFFFF, 0x06FFFF00FFFFFFFF, 0x07FFFF00FFFFFFFF, 0x08FFFF00FFFFFFFF, 0x09FFFF00FFFFFFFF].map
        (fun c : CommandWord => c &&& 0xFF0000FF00000000) =
      [0x0000000000000000, 0x0100000000000000, 0x0200000000000000, 0x0300000000000000, 0x0400000000000000,
        0x0500000000000000, 0x0600000000000000, 0x0700000000000000, 0x0800000000000000, 0x0900000000000000] ∧
    0x0A00000000000000 ≤ (0x0A00000000000000 : CommandWord) ∧
    (0x0A00000000000000 : CommandWord) &&& 0x000000FF00000000 = 0 := by decide

theorem witness_TransportRowsSelectedByEvent :
    (0x10FFFFFFFFFFFFFFFFFF : TransportWord) &&& 0xFF000000000000000000 = 0x10000000000000000000 ∧
    ((0x1108AAAAAAAAAAAAAAAA : TransportWord) &&& 0xFF000000000000000000 = 0x11000000000000000000 ∧
      ((0x1108AAAAAAAAAAAAAAAA : TransportWord) >>> 64).toNat % 256 ≤ 8) ∧
    ((0x1109AAAAAAAAAAAAAAAA : TransportWord) &&& 0xFF000000000000000000 = 0x11000000000000000000 ∧
      8 < ((0x1109AAAAAAAAAAAAAAAA : TransportWord) >>> 64).toNat % 256) ∧
    (0x12FFFFFFFFFFFFFFFFFF : TransportWord) &&& 0xFF000000000000000000 = 0x12000000000000000000 ∧
    ((0x13000000000000000000 : TransportWord) >>> 72).toNat ∉ [0x10, 0x11, 0x12] := by decide

theorem witness_StepRunsDecodedInstruction :
    Presents (presenting (.command 0x01031A0000000000)) (.command 0x01031A0000000000) [] ∧
      decode (.command 0x01031A0000000000) = .instr (.sethex 3 0x1A) := by
  exact ⟨⟨rfl, rfl, rfl⟩, by decide⟩

theorem witness_PlacedWordRunsNext :
    decodeTableWord 64 0x0900000000000000 = some .load ∧
      decodeTableWord 80 0x11080807060504030201 = some (.xdata [1, 2, 3, 4, 5, 6, 7, 8]) := by decide

/-- An illegal form on each port, and a command of each family the build lacks. -/
theorem witness_IllegalCommandsChangeNothing :
    (Presents (presenting (.command 0x0A00000000000000)) (.command 0x0A00000000000000) [] ∧
      IllegalForm (.command 0x0A00000000000000)) ∧
    (Presents (presenting (.transport 0x11090000000000000000)) (.transport 0x11090000000000000000) [] ∧
      IllegalForm (.transport 0x11090000000000000000)) ∧
    (Presents { presenting (.command 0x0900000000000000) with cfg := debounceOnly } (.command 0x0900000000000000) [] ∧
      decode (.command 0x0900000000000000) = .instr .load ∧ FamilyAbsent debounceOnly .load) ∧
    (Presents { presenting (.command 0x0600000000000000) with cfg := scanOnly } (.command 0x0600000000000000) [] ∧
      decode (.command 0x0600000000000000) = .instr .rdbtn ∧ FamilyAbsent scanOnly .rdbtn) := by
  refine ⟨⟨⟨rfl, rfl, rfl⟩, ?_⟩, ⟨⟨rfl, rfl, rfl⟩, ?_⟩, ⟨⟨rfl, rfl, rfl⟩, by decide, ?_⟩, ⟨rfl, rfl, rfl⟩, by decide, ?_⟩
  · left; decide
  · right; decide
  · exact .inl ⟨trivial, rfl⟩
  · exact .inr ⟨trivial, rfl⟩

/-- `SethexWritesPattern`, `SetrawWritesVerbatim`, `SetbrightStoresVerbatim`: the indexes 7 and 8 where their clauses
meet. -/
theorem witness_scan_commands :
    State.reset.cfg.hasScan = true ∧ (7 : Fin 8).val = (7 : Byte).toNat ∧ (∀ k : Fin 8, k.val ≠ (8 : Byte).toNat) := by
  decide

theorem witness_BrightIsInert : (ended (step State.reset)).isSome = true := by decide

/-- `ScanStepPresentsDigit`, `ScanTraceDrivesThePins`, `NoGhostFromFirstLatchPulse`: the last digit slot, the first idle
slot and the last one. -/
theorem witness_scan_step :
    [(7 : Fin 12), 8, 11].map (fun c =>
      (nextTurn { displayAt c with schedule := [.tick 0b11111] }, (displayAt c).cfg.hasScan, decide ((displayAt c).cur.val < 8))) =
      [(.tick 0b11111, true, true), (.tick 0b11111, true, false), (.tick 0b11111, true, false)] := by decide

/-- Both clauses of `NoGhostFromFirstLatchPulse`, where they meet: the first latch pulse is event number 25. -/
theorem witness_NoGhostFromFirstLatchPulse :
    (ended (step { displayAt 7 with schedule := [.tick 0b11111] })).map
      (fun t => (decide (.lat true ∉ t.trace.take 24), decide (.lat true ∈ t.trace.take 25))) = some (true, true) := by
  decide

theorem witness_CountersCountServicedTicks :
    (withTurns [.tick 0b11111, .foreground, .tick 0b11110, .foreground]).schedule =
      [.tick 0b11111, .foreground, .tick 0b11110] ++ [.foreground] := by decide

/-- A window of twelve ticks with foreground steps between them. -/
theorem witness_EachDigitOncePerCycle :
    let turns : List Turn := ticksDirective 6 0b11111 ++ [.foreground, .foreground] ++ ticksDirective 6 0b11110
    (withTurns (turns ++ [.tick 0b11111])).cfg.hasScan = true ∧
      (withTurns (turns ++ [.tick 0b11111])).schedule = turns ++ [.tick 0b11111] ∧ tickTurns turns = 12 := by decide

/-- Two ticks with a foreground step between them. -/
theorem witness_NoGhostFromOneTickToTheNext :
    (withTurns [.tick 0b11111, .foreground, .tick 0b11110]).cfg.hasScan = true ∧ tickTurns [.foreground] = 0 ∧
      (withTurns [.tick 0b11111, .foreground, .tick 0b11110]).schedule =
        .tick 0b11111 :: ([.foreground] ++ .tick 0b11110 :: []) := by decide

/-- The first clause: a tick of a build with the scan engine. -/
theorem witness_SelectsStayZeroOrOneHot_tick :
    nextTurn (withTurns [.tick 0b11111]) = .tick 0b11111 ∧ (withTurns [.tick 0b11111]).cfg.hasScan = true ∧
      (ended (step (withTurns [.tick 0b11111]))).isSome = true := by decide

/-- The other two clauses: a state a scan step left, in a digit slot and in an idle one, and a step from it. -/
theorem witness_SelectsStayZeroOrOneHot_scanned :
    Scanned (scanStep (displayAt 7)) ∧ Scanned (scanStep (displayAt 11)) ∧
      (ended (step (scanStep (displayAt 7)))).isSome = true := by
  refine ⟨⟨by decide, by decide⟩, ⟨by decide, by decide⟩, by decide⟩

theorem witness_SegmapPermutesBits : Config.default.wf = true ∧ reversedLines.wf = true := by decide

theorem witness_FirstScanStepEndsPowerUpWindow : scanOnly.hasScan = true := by decide

/-- A tick of the whole build, and of a build without each family. -/
theorem witness_TickStepFrame :
    nextTurn (withTurns [.tick 0b00000]) = .tick 0b00000 ∧
      (nextTurn { withTurns [.tick 0b00000] with cfg := debounceOnly } = .tick 0b00000 ∧ debounceOnly.hasScan = false) ∧
      (nextTurn { withTurns [.tick 0b00000] with cfg := scanOnly } = .tick 0b00000 ∧ scanOnly.hasDebounce = false) := by
  decide

/-- An input for each clause: an agreeing sample, the tenth differing one, the ninth. -/
theorem witness_DebounceStepTransitions :
    nextTurn { withTurns [.tick 0b11001] with db := #v[low, { low with cnt := 9 }, { low with cnt := 8 }, low, low] } =
        .tick 0b11001 ∧
      Config.default.hasDebounce = true ∧
      (0b11001 : BitVec 5).getLsbD 0 = !low.state ∧
      ((0b11001 : BitVec 5).getLsbD 1 = low.state ∧ ({ low with cnt := 9 } : DebounceState).cnt.val = 9) ∧
      ((0b11001 : BitVec 5).getLsbD 2 = low.state ∧ ({ low with cnt := 8 } : DebounceState).cnt.val < 9) := by decide

theorem witness_TenEqualSamplesSettle :
    Config.default.hasDebounce = true ∧
      (withTurns (.foreground :: ticksDirective 10 0b11110)).schedule = .foreground :: ticksDirective 10 0b11110 ++ [] ∧
      (∀ btn, Turn.tick btn ∈ .foreground :: ticksDirective 10 0b11110 → btn.getLsbD 0 = false) ∧
      10 ≤ tickTurns (.foreground :: ticksDirective 10 0b11110) := by
  refine ⟨by decide, by decide, ?_, by decide⟩
  intro btn h
  simp only [ticksDirective, List.mem_cons, List.mem_replicate, reduceCtorEq, false_or, Turn.tick.injEq] at h
  rw [h.2]
  decide

/-- A pulse of nine ticks. -/
theorem witness_ShortPulseIsInvisible :
    Config.default.hasDebounce = true ∧ Config.default.debounceMode = .returnToZero ∧
      (withTurns (ticksDirective 9 0b11110 ++ [.tick 0b11111])).schedule =
        ticksDirective 9 0b11110 ++ .tick 0b11111 :: [] ∧
      State.reset.db[0].cnt = 0 ∧
      (∀ btn, Turn.tick btn ∈ ticksDirective 9 0b11110 → btn.getLsbD 0 = State.reset.db[0].state) ∧
      tickTurns (ticksDirective 9 0b11110) < 10 ∧ (0b11111 : BitVec 5).getLsbD 0 = !State.reset.db[0].state := by
  refine ⟨by decide, by decide, by decide, by decide, ?_, by decide, by decide⟩
  intro btn h
  simp only [ticksDirective, List.mem_replicate, Turn.tick.injEq] at h
  rw [h.2]
  decide

/-- Nine ticks with a foreground step between them, and ten, the other pins changing. -/
theorem witness_HeldButtonReportsAtTenthTick :
    let nine : List Turn := ticksDirective 4 0b11011 ++ .foreground :: ticksDirective 5 0b01010
    let ten : List Turn := nine ++ [.tick 0b00000]
    Config.default.hasDebounce = true ∧ (∀ btn, Turn.tick btn ∈ nine → btn.getLsbD 2 = false) ∧ tickTurns nine < 10 ∧
      (∀ btn, Turn.tick btn ∈ ten → btn.getLsbD 2 = false) ∧ ten = nine ++ [.tick 0b00000] ∧ tickTurns ten = 10 := by
  refine ⟨by decide, ?_, by decide, ?_, rfl, by decide⟩ <;>
  · intro btn h
    simp only [ticksDirective, List.mem_append, List.mem_cons, List.mem_replicate, List.not_mem_nil, reduceCtorEq,
      false_or, or_false, Turn.tick.injEq] at h
    revert h
    revert btn
    decide

/-- The first and the second clause: a tick that takes an input from LOW to HIGH. -/
theorem witness_EdgeFlagWriters_rise :
    (ended (step { withTurns [.tick 0b11110] with db := #v[{ low with cnt := 9 }, low, low, low, low] })).map
      (fun t => (t.db[0].state, t.db[0].edge)) = some (true, true) ∧ ({ low with cnt := 9 } : DebounceState).edge = false := by
  decide

/-- The third clause: a `GETEDGE` of an input whose flag is set. -/
theorem witness_EdgeFlagWriters_clear :
    (ended (step { withInputs #v[low, low, low, low, risen] with port := [.command 0x0504000000000000] })).map
      (·.db[4].edge) = some false ∧ risen.edge = true := by decide

/-- `GetlevelAnswersLevel`, `RdbtnReportsLevels`: and the ids 4 and 5 where the clauses meet. -/
theorem witness_debounce_commands :
    State.reset.cfg.hasDebounce = true ∧ (4 : Byte).toNat < 5 ∧ ¬ (5 : Byte).toNat < 5 := by decide

theorem witness_GetedgeReadsAndClears :
    (withInputs #v[low, low, low, low, risen]).cfg.hasDebounce = true ∧
      (withInputs #v[low, low, low, low, risen]).cfg.getedgeAtomic = true := by decide

theorem witness_SecondGetedgeAnswersZero :
    (4 : Byte).toNat < 5 ∧ Config.default.hasDebounce = true ∧ Config.default.getedgeAtomic = true ∧
      (withInputs #v[low, low, low, low, risen]).db[4].edge = true ∧
      ((ended (exec (.getedge 4) (withInputs #v[low, low, low, low, risen]))).bind
        fun t => ended (exec (.getedge 4) t)).isSome = true := by decide

/-- The last valid id, the first invalid one, and a clear in progress. -/
theorem witness_GetedgeSplitsInTwoMicroSteps :
    splitGetedge.hasDebounce = true ∧ splitGetedge.getedgeAtomic = false ∧ (4 : Byte).toNat < 5 ∧ 5 ≤ (5 : Byte).toNat ∧
      nextTurn { State.reset with cfg := splitGetedge, micro := .clearEdge 4 } = .foreground ∧
      ({ State.reset with cfg := splitGetedge, micro := .clearEdge 4 } : State).micro = .clearEdge 4 := by decide

theorem witness_EdgeInTheGapIsLost :
    ({ withTurns [.tick 0b11110, .foreground] with micro := .clearEdge 0 } : State).micro = .clearEdge 0 ∧
      foregroundTurns [.tick 0b11110] = 0 ∧
      ({ withTurns [.tick 0b11110, .foreground] with micro := .clearEdge 0 } : State).schedule =
        [.tick 0b11110] ++ .foreground :: [] := by decide

/-- A goal 100 ticks ahead across the wrap of the counter, and the counts 99, 100 and `100 + 2^31 - 1` where the
clauses meet. -/
theorem witness_GoalWindowIsHalfTheCounter :
    (ended (exec (.tickgoal 100) { State.reset with ticks := 0xFFFFFFF0 })).map (·.resp) = some (.word 0x54) ∧
      (0x53 : Count) = 0xFFFFFFF0 + BitVec.ofNat 32 99 ∧ (0x54 : Count) = 0xFFFFFFF0 + BitVec.ofNat 32 100 ∧
      (100 : Count).toNat < 2 ^ 31 ∧ 99 < (100 : Count).toNat ∧
      ((100 : Count).toNat ≤ 100 ∧ 100 < (100 : Count).toNat + 2 ^ 31) ∧
      ((100 : Count).toNat ≤ 100 + 2 ^ 31 - 1 ∧ 100 + 2 ^ 31 - 1 < (100 : Count).toNat + 2 ^ 31) := by decide

/-- A full chunk at the last offset of a clamped transfer, over a buffer in its canonical form. -/
theorem witness_XdataStoresChunk :
    [0xA0, 0xA1, 0xA2, 0xA3, 0xA4, 0xA5, 0xA6, (0xA7 : Byte)].length ≤ 8 ∧
      Memory.wf ({ loaded with xmax := 255, xcnt := 31 } : State).sb = true := by decide

theorem witness_ZeroLengthTransferClearsReady :
    [1, (2 : Byte)].length ≤ 8 ∧ ({ loaded with xmax := 0 } : State).xmax = 0 := by decide

/-- `READY` clear, and set. -/
theorem witness_LoadTakesItsFirstMicroStep :
    (State.reset.cfg.hasScan = true ∧ State.reset.ready = 0) ∧ loaded.cfg.hasScan = true ∧ loaded.ready ≠ 0 := by decide

/-- The last digit write, and the micro-step that clears `READY`. -/
theorem witness_LoadMicroStepsInOrder :
    (nextTurn { loaded with micro := .load 7 9 } = .foreground ∧
      ({ loaded with micro := .load 7 9 } : State).micro = .load 7 9 ∧ (7 : Fin 9).val < 8) ∧
    (nextTurn { loaded with micro := .load 8 9 } = .foreground ∧
      ({ loaded with micro := .load 8 9 } : State).micro = .load 8 9 ∧ (8 : Fin 9).val = 8) := by decide

/-- Vector B20: a tick between two micro-steps. -/
theorem witness_LoadIsTheSameUnderEveryInterleaving :
    let turns : List Turn := [.foreground, .foreground, .tick 0b11111, .foreground, .foreground, .foreground, .foreground,
      .foreground, .foreground]
    let s : State := { loadPresented with schedule := turns ++ [.foreground, .tick 0b11111] }
    s.micro = .idle ∧ s.port = .command 0x0900000000000000 :: [] ∧
      decode (.command 0x0900000000000000) = .instr .load ∧ s.cfg.hasScan = true ∧ s.ready ≠ 0 ∧
      s.schedule = turns ++ .foreground :: [.tick 0b11111] ∧ foregroundTurns turns = 8 := by decide

/-- A transfer of 9 bytes with a tick between its chunks: all of it (`m = 2`), and its start alone (`m = 0`). -/
theorem witness_XwriteFillsScratchpad :
    let bytes : List Byte := [0x00, 0x3F, 0x06, 0x5B, 0x4F, 0x66, 0x6D, 0x7D, 0x07]
    let turns : List Turn := [.foreground, .foreground, .tick 0b11111, .foreground]
    let s : State := { withTurns (turns ++ [.foreground]) with port := programWords (xwrite bytes) ++ [.command 0] }
    s.micro = .idle ∧ Memory.wf s.sb = true ∧ 1 ≤ bytes.length ∧ bytes.length < 2 ^ 16 ∧
      s.port = programWords (xwrite bytes) ++ [.command 0] ∧
      (s.schedule = turns ++ [.foreground] ∧ 2 ≤ (bytes.length + 7) / 8 ∧ foregroundTurns turns = 2 + 1) ∧
      (s.schedule = [.foreground] ++ (turns.tail ++ [.foreground]) ∧ 0 ≤ (bytes.length + 7) / 8 ∧
        foregroundTurns [.foreground] = 0 + 1) := by decide

theorem witness_ForegroundWritesNoTickState :
    nextTurn (presenting (.command 0x0500000000000000)) = .foreground ∧
      (ended (step (presenting (.command 0x0500000000000000)))).isSome = true := by decide

/-- A step that changes `SB` and `XCNT` and sets `READY`, one that changes `XMAX`, and one that clears `READY`. -/
theorem witness_BridgeFieldWriters :
    (ended (step { presenting (.transport 0x11010000000000000007) with xmax := 1 })).map
        (fun t => (decide (t.sb ≠ State.reset.sb), decide (t.xcnt ≠ State.reset.xcnt), decide (t.ready ≠ State.reset.ready))) =
        some (true, true, true) ∧
      (ended (step (presenting (.transport 0x10000000000000000009)))).map (fun t => decide (t.xmax ≠ State.reset.xmax)) =
        some true ∧
      (ended (step { loaded with micro := .load 8 9 })).map (fun t => decide (t.ready ≠ loaded.ready)) = some true := by
  decide

/-- A setter of the last digit, the first micro-step of a `LOAD`, and a later one. -/
theorem witness_DigitWriters :
    (ended (step (presenting (.command 0x0207FF0000000000)))).map (fun t => decide (t.dig[7] ≠ State.reset.dig[7])) =
        some true ∧
      (ended (step loadPresented)).map (fun t => decide (t.dig[0] ≠ loadPresented.dig[0])) = some true ∧
      (ended (step { loaded with micro := .load 7 9 })).map (fun t => decide (t.dig[7] ≠ loaded.dig[7])) = some true := by
  decide

theorem witness_ParametersAreConstant : (ended (step loadPresented)).isSome = true := by decide

theorem witness_SettersAreIdempotent :
    [Instr.sethex 7 0x1F, .sethex 8 0x1F, .setraw 7 0xFF, .setbright 200, .xstart 0 300].map
      (fun i => (ended (exec i State.reset)).isSome) = [true, true, true, true, true] := by decide

/-- The invariant at a state with a `LOAD` in progress, which answers a step. -/
theorem witness_EveryStepKeepsInvariant :
    Inv { loaded with micro := .load 1 9 } ∧ (ended (step { loaded with micro := .load 1 9 })).isSome = true := by
  exact ⟨⟨rfl, rfl, by decide, by decide, rfl, by decide, rfl, by decide⟩, by decide⟩

theorem witness_InvariantHoldsAtReset : reversedLines.wf = true := by decide

theorem witness_CanonicalBuffersAreEqualData :
    Memory.wf (Memory.write loaded.sb 1 0x00) = true ∧ Memory.wf loaded.sb.tail = true ∧
      ∀ a, Memory.read (Memory.write loaded.sb 1 0x00) a = Memory.read loaded.sb.tail a := by
  refine ⟨by decide, by decide, fun a => ?_⟩
  rfl

end Sys2Proof.Tests
end

section

namespace Sys2Proof.Machine

open Sys2Proof

/-- Rejecting a word, on either port, leaves the parameters (`30_encoding.md` rule R77). -/
@[simp] theorem illegalWord_cfg (w : PortWord) (s : State) : (illegalWord w s).cfg = s.cfg := by
  cases w with
  | command _ => exact illegalCommand_cfg s
  | transport _ => exact illegalEvent_cfg s

/-- Settles O49: each kind of step leaves the parameters alone, the commands and events by their common frame. -/
theorem parametersAreConstant : Obligations.ParametersAreConstant := by
  intro s t h
  obtain ⟨btn, -, hs⟩ | ⟨k, r, -, -, hs⟩ | ⟨id, -, -, hs⟩ | ⟨-, -, -, hs⟩ | ⟨w, rest, -, -, -, hs⟩ |
    ⟨w, rest, i, -, -, hs⟩ := step_cases s <;> rw [hs] at h
  · cases h
    simp
  · cases h
    exact (loadStep_frame k r (dropTurn s)).cfg
  · cases h
    exact (clearEdgeStep_frame id (dropTurn s)).cfg
  · cases h
    simp
  · cases h
    simp
  · exact (exec_frame h).cfg

end Sys2Proof.Machine
end

section

namespace Sys2Proof.Machine

open Sys2Proof

/-! ### The scan engine's digit commands -/

/-- The low nibble's value is the remainder modulo 16, the source's `v & 0xF`. -/
theorem toNat_lowNibble (v : Byte) : (v.extractLsb' 0 4).toNat = v.toNat % 16 := by
  simp [BitVec.extractLsb'_toNat]

/-- Bit 4 is clear exactly where the source's `v & 0x10` is 0. -/
theorem bitFour_clear_iff (v : Byte) : v.getLsbD 4 = false ↔ v &&& 0x10 = 0 := by
  have h : v &&& 0x10 = if v.getLsbD 4 then 0x10 else 0 := BitVec.and_twoPow v 4
  rw [h]
  cases v.getLsbD 4 <;> decide

/-- `hexpat` by the source's own formula (`41_scan_engine.md` rule R102). -/
theorem hexpat_eq_source (cfg : Config) (v : Byte) :
    hexpat cfg v = cfg.hextab[v.toNat % 16]'(Nat.mod_lt _ (Nat.succ_pos 15)) |||
      (if v &&& 0x10 = 0 then 0x00 else cfg.dpBit) := by
  have entry : hexEntry cfg (v.extractLsb' 0 4) = cfg.hextab[v.toNat % 16]'(Nat.mod_lt _ (Nat.succ_pos 15)) := by
    simp only [hexEntry, toNat_lowNibble]
  have point : (if v.getLsbD 4 then cfg.dpBit else 0x00) = if v &&& 0x10 = 0 then 0x00 else cfg.dpBit := by
    simp only [← bitFour_clear_iff]
    cases v.getLsbD 4 <;> rfl
  rw [hexpat, entry, point]

/-- With the scan engine `SETHEX` writes the value's pattern and answers 0 (rule R103). -/
theorem exec_sethex_of_hasScan (idx val : Byte) {s : State} (h : s.cfg.hasScan = true) :
    exec (.sethex idx val) s = .next (respond (.word 0) (setDigit idx.toNat (hexpat s.cfg val) s)) := if_pos h

/-- With the scan engine `SETRAW` writes the byte itself and answers 0 (rule R104). -/
theorem exec_setraw_of_hasScan (idx val : Byte) {s : State} (h : s.cfg.hasScan = true) :
    exec (.setraw idx val) s = .next (respond (.word 0) (setDigit idx.toNat val s)) := if_pos h

/-- A digit write leaves every field but the DigitBuffer, for an index in range or not. -/
theorem setDigit_keeps_rest (r : Response) (i : Nat) (v : Byte) (s : State) :
    let t := respond r (setDigit i v s)
    SameScanner s t ∧ t.bright = s.bright ∧ SameDebouncer s t ∧ SameTimer s t ∧ SameTransfer s t ∧
      SameMemory s t ∧ SameQueues s t ∧ t.micro = s.micro := by
  simp [SameScanner, SameDebouncer, SameTimer, SameTransfer, SameMemory, SameQueues]

/-- Settles O10: the pattern written is the source's formula, and a digit write reaches its own digit alone. -/
theorem sethexWritesPattern : Obligations.SethexWritesPattern := by
  intro idx val s hscan
  refine ⟨_, exec_sethex_of_hasScan idx val hscan, rfl, rfl, fun k => ?_, setDigit_keeps_rest _ _ _ _⟩
  rw [← hexpat_eq_source]
  exact setDigit_get idx.toNat (hexpat s.cfg val) s k

/-- Settles O11: a digit write reaches its own digit alone. -/
theorem setrawWritesVerbatim : Obligations.SetrawWritesVerbatim := by
  intro idx val s hscan
  exact ⟨_, exec_setraw_of_hasScan idx val hscan, rfl, rfl, setDigit_get idx.toNat val s, setDigit_keeps_rest _ _ _ _⟩

end Sys2Proof.Machine
end

section

namespace Sys2Proof.Machine

open Sys2Proof

/-! ### The scratchpad bridge -/

/-- A step that only answers changes nothing but the two observations. -/
theorem respond_unchanged (r : Response) (s : State) : Unchanged s (respond r s) :=
  ⟨fun _ => rfl, ⟨rfl, rfl⟩, rfl, fun _ => rfl, ⟨rfl, rfl, rfl⟩, ⟨rfl, rfl, rfl⟩, fun _ => rfl, ⟨rfl, rfl, rfl⟩, rfl⟩

/-- The clamp of a length, as a number (`42_scratchpad_bridge.md` rule R131). -/
@[simp] theorem toNat_clampLength (len : BitVec 16) : (clampLength len).toNat = min len.toNat 255 := by
  unfold clampLength
  split
  · next h =>
    have : 255 < len.toNat := BitVec.lt_def.1 h
    exact (Nat.min_eq_right (Nat.le_of_lt this)).symm
  · next h =>
    have : len.toNat ≤ 255 := Nat.le_of_not_lt fun hlt => h (BitVec.lt_def.2 hlt)
    rw [BitVec.toNat_setWidth, Nat.min_eq_left this, Nat.mod_eq_of_lt (by omega)]

@[simp] theorem Memory.length_readBytes (m : Memory) (n : Nat) : (Memory.readBytes m n).length = n := by
  simp [Memory.readBytes]

@[simp] theorem Memory.getElem_readBytes (m : Memory) (n j : Nat) (h : j < (Memory.readBytes m n).length) :
    (Memory.readBytes m n)[j] = Memory.read m j := by
  simp [Memory.readBytes]

/-- A byte of a chunk is stored exactly if its offset is below `XMAX` (rule R132). -/
theorem lt_length_keptBytes_iff (bytes : List Byte) (s : State) (j : Nat) :
    j < (keptBytes bytes s).length ↔ chunkOffset s + j < s.xmax.toNat ∧ j < bytes.length := by
  rw [keptBytes, List.length_take, chunkKept]
  split <;> omega

/-- A chunk that begins below `XMAX` is stored within the capacity, as `XMAX` is at most 255 (rule R131). -/
theorem keptBytes_fit (bytes : List Byte) {s : State} (h : chunkOffset s < s.xmax.toNat) :
    chunkOffset s + (keptBytes bytes s).length ≤ scratchSize := by
  have hxmax : s.xmax.toNat < 256 := s.xmax.isLt
  rw [keptBytes, List.length_take, chunkKept, if_pos h, scratchSize]
  omega

/-- A read after storing a chunk (rule R132): the bytes of the chunk below `XMAX` at their own offsets, and every other
offset as before. -/
theorem read_storedChunk (bytes : List Byte) {s : State} (hm : Memory.wf s.sb = true) (a : Nat) :
    Memory.read (Memory.writeBytes s.sb (chunkOffset s) (keptBytes bytes s)) a =
      if h : chunkOffset s ≤ a ∧ a < s.xmax.toNat ∧ a - chunkOffset s < bytes.length then
        bytes[a - chunkOffset s]'h.2.2
      else Memory.read s.sb a := by
  by_cases hoff : chunkOffset s < s.xmax.toNat
  · rw [Memory.read_writeBytes _ hm _ (keptBytes_fit bytes hoff)]
    have hsame : (chunkOffset s ≤ a ∧ a - chunkOffset s < (keptBytes bytes s).length) ↔
        (chunkOffset s ≤ a ∧ a < s.xmax.toNat ∧ a - chunkOffset s < bytes.length) := by
      rw [lt_length_keptBytes_iff]
      omega
    simp only [hsame]
    split
    · exact List.getElem_take
    · rfl
  · have hnone : keptBytes bytes s = [] := by rw [keptBytes, chunkKept, if_neg hoff, List.take_zero]
    rw [hnone, dif_neg (by omega)]
    rfl

/-- A legal `XDATA` writes `SB`, `XCNT` and `READY` alone, and answers nothing (rule R132). -/
theorem exec_xdata_of_fits {bytes : List Byte} (s : State) (h : bytes.length ≤ 8) :
    exec (.xdata bytes) s = .next (respond .none
      { s with
        sb := Memory.writeBytes s.sb (chunkOffset s) (keptBytes bytes s)
        xcnt := s.xcnt + 1
        ready := readyAfterChunk (chunkOffset s) bytes.length s.xmax s.ready }) := if_pos h

/-- Settles O39: the read after a stored chunk; the flag and the frame hold by the meaning's own equation. -/
theorem xdataStoresChunk : Obligations.XdataStoresChunk := by
  intro bytes s hlen hm
  exact ⟨_, exec_xdata_of_fits s hlen, read_storedChunk bytes hm, rfl, rfl, rfl, rfl, rfl, fun _ => rfl, ⟨rfl, rfl⟩,
    rfl, fun _ => rfl, ⟨rfl, rfl, rfl⟩, ⟨rfl, rfl, rfl⟩, rfl⟩

/-- Settles O38: the clamp is the minimum, and an `XSTART` writes `XMAX` and `XCNT` alone. -/
theorem xstartClampsLength : Obligations.XstartClampsLength := by
  intro dir len s
  exact ⟨_, rfl, toNat_clampLength len, rfl, rfl, rfl, rfl, fun _ => rfl, ⟨rfl, rfl⟩, rfl, fun _ => rfl,
    ⟨rfl, rfl, rfl⟩, fun _ => rfl, ⟨rfl, rfl, rfl⟩, rfl⟩

/-- Settles O40: the bytes read are `XMAX` many and in order, and answering changes nothing. -/
theorem xgetReturnsScratchpad : Obligations.XgetReturnsScratchpad := by
  intro s
  exact ⟨_, _, rfl, rfl, Memory.length_readBytes _ _, Memory.getElem_readBytes _ _, rfl, respond_unchanged _ s⟩

end Sys2Proof.Machine
end

section

namespace Sys2Proof.Machine

open Sys2Proof

/-! ### The debouncer's commands -/

/-- A bit's response is 1 for a set bit and 0 for a clear one. -/
theorem bitResponse_eq_word (b : Bool) : bitResponse b = .word (if b then 1 else 0) := by
  cases b <;> rfl

/-- With the sampler `GETLEVEL` only answers (`43_debouncer.md` rule R155). -/
theorem exec_getlevel_of_hasDebounce (idx : Byte) {s : State} (h : s.cfg.hasDebounce = true) :
    exec (.getlevel idx) s = .next (respond (levelResponse idx s) s) := if_pos h

/-- The level answered: 1 or 0 by `STATE[idx]` of a valid id, 0 for any other (rule R155). -/
theorem levelResponse_eq_word (idx : Byte) (s : State) :
    levelResponse idx s =
      .word (if h : idx.toNat < 5 then (if (s.db[idx.toNat]'h).state then 1 else 0) else 0) := by
  unfold levelResponse
  split
  · exact bitResponse_eq_word _
  · rfl

/-- Settles O28: the response is the level's word, and answering changes nothing. -/
theorem getlevelAnswersLevel : Obligations.GetlevelAnswersLevel := by
  intro idx s hdeb
  exact ⟨_, exec_getlevel_of_hasDebounce idx hdeb, levelResponse_eq_word idx s, rfl, respond_unchanged _ s⟩

/-- A `GETEDGE` of a valid id reads and clears in one step where it is atomic (rule R156). -/
theorem exec_getedge_of_atomic {idx : Byte} {s : State} (hdeb : s.cfg.hasDebounce = true)
    (hatomic : s.cfg.getedgeAtomic = true) (hid : idx.toNat < 5) :
    exec (.getedge idx) s =
      .next (respond (bitResponse s.db[idx.toNat].edge) (clearEdgeFlag ⟨idx.toNat, hid⟩ s)) := by
  rw [exec, execGetedge, if_pos hdeb, dif_pos hid, if_pos hatomic]

/-- A `GETEDGE` of an invalid id only answers 0, atomic or not (rules R156, R157). -/
theorem exec_getedge_of_invalid {idx : Byte} {s : State} (hdeb : s.cfg.hasDebounce = true)
    (hid : ¬ idx.toNat < 5) : exec (.getedge idx) s = .next (respond (.word 0) s) := by
  rw [exec, execGetedge, if_pos hdeb, dif_neg hid]

/-- The flags after a clear, the third field beside `clearEdgeFlag_level` and `clearEdgeFlag_count` (rule R156). -/
theorem clearEdgeFlag_edge (id i : Fin 5) (s : State) :
    (clearEdgeFlag id s).db[i].edge = if i = id then false else s.db[i].edge := by
  rw [clearEdgeFlag_get]; split <;> rfl

/-- Settles O29: a valid id clears its own flag alone; an invalid id only answers, and is the number of no flag. -/
theorem getedgeReadsAndClears : Obligations.GetedgeReadsAndClears := by
  intro idx s hdeb hatomic
  by_cases hid : idx.toNat < 5
  · refine ⟨_, exec_getedge_of_atomic hdeb hatomic hid, ?_, rfl,
      fun i => ⟨clearEdgeFlag_level _ i s, clearEdgeFlag_count _ i s, ?_⟩,
      fun _ => rfl, ⟨rfl, rfl⟩, rfl, ⟨rfl, rfl, rfl⟩, ⟨rfl, rfl, rfl⟩, fun _ => rfl, ⟨rfl, rfl, rfl⟩, rfl⟩
    · rw [dif_pos hid]
      exact bitResponse_eq_word _
    · simpa only [respond_db, Fin.ext_iff] using clearEdgeFlag_edge ⟨idx.toNat, hid⟩ i s
  · obtain ⟨digits, scanner, bright, -, timer, transfer, memory, queues, micro⟩ := respond_unchanged (.word 0) s
    refine ⟨_, exec_getedge_of_invalid hdeb hid, ?_, rfl, fun i => ⟨rfl, rfl, ?_⟩,
      digits, scanner, bright, timer, transfer, memory, queues, micro⟩
    · rw [dif_neg hid]
      rfl
    · have hother : i.val ≠ idx.toNat := by omega
      rw [if_neg hother]
      rfl

/-- With the sampler `RDBTN` only answers (rule R158). -/
theorem exec_rdbtn_of_hasDebounce {s : State} (h : s.cfg.hasDebounce = true) :
    exec .rdbtn s = .next (respond (.word ((reportByte s).setWidth 32)) s) := if_pos h

/-- The report bit by bit: the five levels in bits 4:0, and 0 above them (rule R158). -/
theorem getLsbD_reportByte (s : State) (j : Nat) :
    (reportByte s).getLsbD j = if h : j < 5 then (s.db[j]'h).state else false := by
  unfold reportByte
  -- the width as a sum of the parts' widths, so that the bit of an append can be looked up
  change BitVec.getLsbD (w := 3 + 1 + 1 + 1 + 1 + 1) _ j = _
  simp only [BitVec.getLsbD_append]
  match j with
  | 0 | 1 | 2 | 3 | 4 => simp
  | n + 5 => simp

/-- Settles O33: the response is the report byte, zero-extended, and answering changes nothing. -/
theorem rdbtnReportsLevels : Obligations.RdbtnReportsLevels := by
  intro s hdeb
  refine ⟨_, _, exec_rdbtn_of_hasDebounce hdeb, rfl, rfl, respond_unchanged _ s, fun j => ?_⟩
  rw [BitVec.getLsbD_setWidth, getLsbD_reportByte]
  by_cases hj : j < 5
  · have hwidth : j < 32 := by omega
    simp [hj, hwidth]
  · simp [hj]

end Sys2Proof.Machine
end

section

namespace Sys2Proof.Machine

open Sys2Proof

/-! ### The tick helpers -/

/-- `NOP` only answers 0 (`44_tick_helpers.md` rule R170). -/
theorem exec_nop (s : State) : exec .nop s = .next (respond (.word 0) s) := rfl

/-- Settles O34: the all-zero word decodes to `NOP`, and answering changes nothing. -/
theorem nopChangesNothing : Obligations.NopChangesNothing :=
  ⟨by decide, fun s => ⟨_, exec_nop s, rfl, rfl, respond_unchanged _ s⟩⟩

/-- `TICKGOAL` only answers the sum of the counter and its operand (rule R171). -/
theorem exec_tickgoal (imm : Count) (s : State) :
    exec (.tickgoal imm) s = .next (respond (.word (s.ticks + imm)) s) := rfl

/-- The sum of two counts is the sum of their values modulo 2^32 (rule R171). -/
theorem add_eq_ofNat_mod (a b : Count) : a + b = BitVec.ofNat 32 ((a.toNat + b.toNat) % 2 ^ 32) := by
  rw [← BitVec.toNat_add, BitVec.ofNat_toNat, BitVec.setWidth_eq]

/-- Settles O35: the response is the sum modulo 2^32, and answering changes nothing. -/
theorem tickgoalAddsDelta : Obligations.TickgoalAddsDelta := by
  intro imm s
  exact ⟨_, exec_tickgoal imm s, congrArg Response.word (add_eq_ofNat_mod s.ticks imm), rfl, respond_unchanged _ s⟩

/-- `TICKREACHED` only answers whether the goal is reached, as 1 or 0 (rule R172). -/
theorem exec_tickreached (imm : Count) (s : State) :
    exec (.tickreached imm) s = .next (respond (.word (if goalReached s.ticks imm then 1 else 0)) s) := by
  rw [← bitResponse_eq_word]
  rfl

/-- The test of bit 31 is a test of the sign: a goal is reached when the difference is not negative (rule R172). -/
theorem goalReached_iff_toInt_nonneg (ticks goal : Count) :
    goalReached ticks goal = true ↔ 0 ≤ (ticks - goal).toInt := by
  have hbit : (ticks - goal).getLsbD 31 = (ticks - goal).msb := (BitVec.msb_eq_getLsbD_last _).symm
  rw [goalReached, hbit, BitVec.msb_eq_toInt, Bool.not_eq_true', decide_eq_false_iff_not, not_lt]

/-- Settles O36: the bit tested is the difference's sign, and answering changes nothing. -/
theorem tickreachedTestsSign : Obligations.TickreachedTestsSign := by
  intro imm s
  refine ⟨_, exec_tickreached imm s, ?_, rfl, respond_unchanged _ s⟩
  simp only [respond_resp, goalReached_iff_toInt_nonneg]

end Sys2Proof.Machine
end

section

namespace Sys2Proof.Machine

open Sys2Proof

/-! ### The decoder on encoded words -/

/-- Byte `j` of packed bytes is the `j`-th byte packed, as far as the payload's 8 bytes reach (`30_encoding.md` rule
R72). -/
theorem payloadByte_packBytes {bs : List Byte} {j : Nat} (hj : j < bs.length) (hfit : j < chunkSize) :
    payloadByte (packBytes bs) j = bs[j] := by
  induction bs generalizing j with
  | nil => exact absurd hj (Nat.not_lt_zero j)
  | cons b bs ih =>
    cases j with
    | zero => exact payloadByte_packBytes_zero b bs
    | succ j =>
      rw [payloadByte_packBytes_succ b bs j (Nat.lt_of_succ_lt_succ hfit)]
      exact ih (Nat.lt_of_succ_lt_succ hj) (Nat.lt_of_succ_lt hfit)

/-- Unpacking a packed chunk gives the chunk back. -/
theorem payloadBytes_packBytes {bs : List Byte} (hfit : bs.length ≤ chunkSize) :
    payloadBytes (packBytes bs) bs.length = bs := by
  apply List.ext_getElem (by simp [payloadBytes])
  intro j _ hj
  simp [payloadBytes, payloadByte_packBytes hj (Nat.lt_of_lt_of_le hj hfit)]

/-- The requested length survives in the payload's low 16 bits. -/
theorem payloadLength_setWidth (len : BitVec 16) : payloadLength (len.setWidth 64) = len := by
  apply BitVec.eq_of_toNat_eq
  have hlen : len.toNat < 65536 := len.isLt
  simp [payloadLength, hlen]

/-- A chunk's length survives in the 8-bit field `n`. -/
theorem toNat_chunkLength {bs : List Byte} (hfit : bs.length ≤ chunkSize) :
    (BitVec.ofNat 8 bs.length).toNat = bs.length := by
  rw [BitVec.toNat_ofNat, Nat.mod_eq_of_lt (by unfold chunkSize at hfit; omega)]

/-- Settles O2: the fields of an encoded word are those it was built from, so its code selects its own row; an `XDATA`
gives its bytes back because at most 8 of them were packed. -/
theorem decodeInvertsEncode : Obligations.DecodeInvertsEncode := by
  intro i hwf
  cases i with
  | xdata bytes =>
    have hfit : bytes.length ≤ chunkSize := of_decide_eq_true hwf
    simp [encode, decode, decodeTransport, toNat_chunkLength hfit, payloadBytes_packBytes hfit, hfit]
  | xstart dir len => simp [encode, decode, decodeTransport, payloadLength_setWidth]
  | xget => simp [encode, decode, decodeTransport]
  | nop | sethex | setraw | setbright | getlevel | getedge | rdbtn | tickgoal | tickreached | load =>
    simp [encode, decode, decodeCommand]

/-- Settles O1: each word of rule R82 evaluated, in both directions. -/
theorem workedEncodingsAgree : Obligations.WorkedEncodingsAgree := by
  unfold Obligations.WorkedEncodingsAgree
  decide

/-! ### The fields of a word as its bits -/

theorem commandIdx_eq (c : CommandWord) : commandIdx c = (c >>> 48).setWidth 8 :=
  BitVec.setWidth_ushiftRight_eq_extractLsb.symm

theorem commandVal_eq (c : CommandWord) : commandVal c = (c >>> 40).setWidth 8 :=
  BitVec.setWidth_ushiftRight_eq_extractLsb.symm

theorem commandOp_eq (c : CommandWord) : commandOp c = (c >>> 56).setWidth 8 :=
  BitVec.setWidth_ushiftRight_eq_extractLsb.symm

theorem commandImm_eq (c : CommandWord) : commandImm c = c.setWidth 32 := by
  rw [commandImm, ← BitVec.setWidth_ushiftRight_eq_extractLsb, BitVec.ushiftRight_zero]

theorem toNat_commandOp (c : CommandWord) : (commandOp c).toNat = (c >>> 56).toNat := by
  have hc : c.toNat < 2 ^ 64 := c.isLt
  rw [commandOp, BitVec.extractLsb'_toNat, BitVec.toNat_ushiftRight, Nat.shiftRight_eq_div_pow]
  omega

theorem toNat_commandRsv (c : CommandWord) : (commandRsv c).toNat = (c >>> 32).toNat % 256 := by
  rw [commandRsv, BitVec.extractLsb'_toNat, BitVec.toNat_ushiftRight]

theorem transportN_eq (t : TransportWord) : transportN t = (t >>> 64).setWidth 8 :=
  BitVec.setWidth_ushiftRight_eq_extractLsb.symm

theorem transportEv_eq (t : TransportWord) : transportEv t = (t >>> 72).setWidth 8 :=
  BitVec.setWidth_ushiftRight_eq_extractLsb.symm

theorem toNat_transportN (t : TransportWord) : (transportN t).toNat = (t >>> 64).toNat % 256 := by
  rw [transportN, BitVec.extractLsb'_toNat, BitVec.toNat_ushiftRight]

theorem toNat_transportEv (t : TransportWord) : (transportEv t).toNat = (t >>> 72).toNat := by
  have ht : t.toNat < 2 ^ 80 := t.isLt
  rw [transportEv, BitVec.extractLsb'_toNat, BitVec.toNat_ushiftRight, Nat.shiftRight_eq_div_pow]
  omega

/-- The requested length is the word's low 16 bits. -/
theorem payloadLength_transportPayload (t : TransportWord) : payloadLength (transportPayload t) = t.setWidth 16 := by
  rw [payloadLength, transportPayload, BitVec.extractLsb'_extractLsb'_of_le (by omega),
    ← BitVec.setWidth_ushiftRight_eq_extractLsb, BitVec.ushiftRight_zero]

/-- Payload byte `j` is bits `8j+7:8j` of the word. -/
theorem payloadByte_transportPayload (t : TransportWord) {j : Nat} (hj : j < chunkSize) :
    payloadByte (transportPayload t) j = (t >>> (8 * j)).setWidth 8 := by
  unfold chunkSize at hj
  rw [BitVec.setWidth_ushiftRight_eq_extractLsb, payloadByte, transportPayload,
    BitVec.extractLsb'_extractLsb'_of_le (by omega)]

/-- The first `n` payload bytes are the low `n` bytes of the word. -/
theorem payloadBytes_transportPayload (t : TransportWord) {n : Nat} (hn : n ≤ chunkSize) :
    payloadBytes (transportPayload t) n = (List.range n).map fun j => (t >>> (8 * j)).setWidth 8 :=
  List.map_congr_left fun _ hj =>
    payloadByte_transportPayload t (Nat.lt_of_lt_of_le (List.mem_range.1 hj) hn)

/-! ### The rows by mask and match -/

/-- The row mask keeps the fields `op` and `rsv`: a word that matches has those of the match. -/
theorem commandFields_of_match {c row : CommandWord} (h : c &&& 0xFF0000FF00000000 = row) :
    commandOp c = commandOp row ∧ commandRsv c = commandRsv row := by
  have hop : (0xFF0000FF00000000 : CommandWord).extractLsb' 56 8 = BitVec.allOnes 8 := by decide
  have hrsv : (0xFF0000FF00000000 : CommandWord).extractLsb' 32 8 = BitVec.allOnes 8 := by decide
  subst h
  simp only [commandOp, commandRsv, BitVec.extractLsb'_and, hop, hrsv, BitVec.and_allOnes, and_self]

/-- A word whose bits 39:32 are masked to 0 has `rsv = 0`. -/
theorem commandRsv_of_masked {c : CommandWord} (h : c &&& 0x000000FF00000000 = 0) : commandRsv c = 0x00 := by
  have hrsv : (0x000000FF00000000 : CommandWord).extractLsb' 32 8 = BitVec.allOnes 8 := by decide
  have hmasked : commandRsv (c &&& 0x000000FF00000000) = commandRsv c := by
    simp only [commandRsv, BitVec.extractLsb'_and, hrsv, BitVec.and_allOnes]
  rw [← hmasked, h]
  rfl

/-- The event mask keeps the event code. -/
theorem transportEv_of_match {t row : TransportWord} (h : t &&& 0xFF000000000000000000 = row) :
    transportEv t = transportEv row := by
  have hev : (0xFF000000000000000000 : TransportWord).extractLsb' 72 8 = BitVec.allOnes 8 := by decide
  subst h
  simp only [transportEv, BitVec.extractLsb'_and, hev, BitVec.and_allOnes]

/-- A word with `rsv = 0` and an `op` beyond the last row is illegal (rule R77 (a)). -/
theorem decodeCommand_reservedOpcode {c : CommandWord} (hrsv : commandRsv c = 0x00)
    (hop : 0x0A ≤ (commandOp c).toNat) : decodeCommand c = .illegal (.reservedOpcode (commandOp c)) := by
  have hrow (k : Byte) (hk : k.toNat < 0x0A) : commandOp c ≠ k := fun h => by rw [h] at hop; omega
  simp [decodeCommand, hrsv, hrow]

/-- A word with `rsv` not 0 is illegal (rule R77 (b)). -/
theorem decodeCommand_reservedField {c : CommandWord} (hrsv : commandRsv c ≠ 0x00) :
    decodeCommand c = .illegal (.reservedField (commandRsv c)) := if_pos hrsv

/-- A word with `rsv = 0` and the `op` of a row is an instruction (rule R75). -/
theorem decodeCommand_legal {c : CommandWord} (hrsv : commandRsv c = 0x00) (hop : (commandOp c).toNat < 0x0A) :
    ∃ i, decodeCommand c = .instr i := by
  simp only [decodeCommand, hrsv, ne_eq, not_true_eq_false, if_false]
  iterate 10
    split
    · exact ⟨_, rfl⟩
  bv_omega

/-- The event code is none of the three exactly if the word's top byte is none of them. -/
theorem transportEv_reserved_iff (t : TransportWord) :
    transportEv t ∉ [0x10, 0x11, 0x12] ↔ (t >>> 72).toNat ∉ [0x10, 0x11, 0x12] := by
  simp only [List.mem_cons, List.not_mem_nil, or_false, ← toNat_transportEv, ← BitVec.toNat_inj]
  rfl

/-- An event code that is none of the three is illegal (rule R77 (c)). -/
theorem decodeTransport_reservedEvent {t : TransportWord} (hev : transportEv t ∉ [0x10, 0x11, 0x12]) :
    decodeTransport t = .illegal (.reservedEvent (transportEv t)) := by
  simp only [List.mem_cons, List.not_mem_nil, or_false, not_or] at hev
  obtain ⟨h10, h11, h12⟩ := hev
  rw [decodeTransport, if_neg h10, if_neg h11, if_neg h12]

/-- An `XDATA` of at most 8 bytes (rule R76). -/
theorem decodeTransport_xdata {t : TransportWord} (hev : transportEv t = 0x11)
    (hn : (transportN t).toNat ≤ chunkSize) :
    decodeTransport t = .instr (.xdata (payloadBytes (transportPayload t) (transportN t).toNat)) := by
  rw [decodeTransport, if_neg (by rw [hev]; decide), if_pos hev, if_pos hn]

/-- An `XDATA` of more than 8 bytes is illegal (rule R77 (d)). -/
theorem decodeTransport_chunkTooLong {t : TransportWord} (hev : transportEv t = 0x11)
    (hn : ¬ (transportN t).toNat ≤ chunkSize) : decodeTransport t = .illegal (.chunkTooLong (transportN t)) := by
  rw [decodeTransport, if_neg (by rw [hev]; decide), if_pos hev, if_neg hn]

/-- Settles O3: the mask determines `op` and `rsv`, which alone select the row; the fields read are slices of the
word. -/
theorem commandRowsSelectedByOpcode : Obligations.CommandRowsSelectedByOpcode := by
  intro c
  refine ⟨?_, ?_, ?_, ?_, ?_, ?_, ?_, ?_, ?_, ?_, fun hge hmask => ?_⟩
  case refine_11 =>
    have hop : 0x0A ≤ (commandOp c).toNat := by
      have hc : 0x0A00000000000000 ≤ c.toNat := hge
      rw [toNat_commandOp, BitVec.toNat_ushiftRight, Nat.shiftRight_eq_div_pow]
      omega
    rw [decode, decodeCommand_reservedOpcode (commandRsv_of_masked hmask) hop, commandOp_eq]
  all_goals
    intro hmatch
    obtain ⟨hop, hrsv⟩ := commandFields_of_match hmatch
    simp only [decode, decodeCommand, hop, hrsv, commandIdx_eq, commandVal_eq, commandImm_eq]
    rfl

/-- Settles O4: the mask determines the event code, which alone selects the row; the fields read are slices of the
word. -/
theorem transportRowsSelectedByEvent : Obligations.TransportRowsSelectedByEvent := by
  intro t
  refine ⟨fun hmatch => ?_, fun hmatch hn => ?_, fun hmatch hn => ?_, fun hmatch => ?_, fun hev => ?_⟩
  · have hev : transportEv t = 0x10 := transportEv_of_match hmatch
    rw [decode, decodeTransport, if_pos hev, transportN_eq, payloadLength_transportPayload]
  · rw [← toNat_transportN] at hn ⊢
    rw [decode, decodeTransport_xdata (transportEv_of_match hmatch) hn, payloadBytes_transportPayload t hn]
  · rw [← toNat_transportN] at hn
    rw [decode, decodeTransport_chunkTooLong (transportEv_of_match hmatch) (Nat.not_le_of_lt hn), transportN_eq]
  · have hev : transportEv t = 0x12 := transportEv_of_match hmatch
    rw [decode, decodeTransport, hev]
    rfl
  · rw [decode, decodeTransport_reservedEvent ((transportEv_reserved_iff t).2 hev), transportEv_eq]

/-- The decoder of format C rejects a word exactly for its `op` or its `rsv`. -/
theorem decodeCommand_illegal_iff (c : CommandWord) :
    (∃ why, decodeCommand c = .illegal why) ↔ 0x0A ≤ (commandOp c).toNat ∨ commandRsv c ≠ 0x00 := by
  by_cases hrsv : commandRsv c = 0x00
  · by_cases hop : 0x0A ≤ (commandOp c).toNat
    · exact iff_of_true ⟨_, decodeCommand_reservedOpcode hrsv hop⟩ (.inl hop)
    · obtain ⟨i, hi⟩ := decodeCommand_legal hrsv (Nat.lt_of_not_le hop)
      simp [hi, hop, hrsv]
  · exact iff_of_true ⟨_, decodeCommand_reservedField hrsv⟩ (.inr hrsv)

/-- The decoder of format T rejects a word exactly for its event code or the length of its chunk. -/
theorem decodeTransport_illegal_iff (t : TransportWord) :
    (∃ why, decodeTransport t = .illegal why) ↔
      transportEv t ∉ [0x10, 0x11, 0x12] ∨ (transportEv t = 0x11 ∧ ¬ (transportN t).toNat ≤ chunkSize) := by
  by_cases hev : transportEv t ∈ [0x10, 0x11, 0x12]
  · simp only [List.mem_cons, List.not_mem_nil, or_false] at hev
    obtain hev | hev | hev := hev
    · simp [decodeTransport, hev]
    · by_cases hn : (transportN t).toNat ≤ chunkSize
      · simp [decodeTransport_xdata hev hn, hev, hn]
      · exact iff_of_true ⟨_, decodeTransport_chunkTooLong hev hn⟩ (.inr ⟨hev, hn⟩)
    · simp [decodeTransport, hev]
  · exact iff_of_true ⟨_, decodeTransport_reservedEvent hev⟩ (.inl hev)

/-- Settles O5: what each format's decoder rejects, in the words of rule R77 through the fields' values. -/
theorem decoderRejectsExactlyIllegalForms : Obligations.DecoderRejectsExactlyIllegalForms := by
  intro w
  cases w with
  | command c =>
    rw [decode, decodeCommand_illegal_iff, IllegalForm, ← toNat_commandOp, ← toNat_commandRsv,
      ne_eq, ← BitVec.toNat_inj]
    rfl
  | transport t =>
    rw [decode, decodeTransport_illegal_iff, IllegalForm, transportEv_reserved_iff, ← BitVec.toNat_inj,
      toNat_transportEv, toNat_transportN, Nat.not_le]
    rfl

end Sys2Proof.Machine
end

section

namespace Sys2Proof.Machine

open Sys2Proof

/-! ### What a command or event can do -/

/-- What a command or event `i` that answers `t` did to `s`, one constructor per kind of write. A command that only
answers (a query, an index or id out of range, an absent family) is `answer`. -/
inductive Effect (s : State) : Instr → State → Prop where
  | answer (i : Instr) (r : Response) : Effect s i (respond r s)
  | sethex (idx val : Byte) : Effect s (.sethex idx val) (respond (.word 0) (setDigit idx.toNat (hexpat s.cfg val) s))
  | setraw (idx val : Byte) : Effect s (.setraw idx val) (respond (.word 0) (setDigit idx.toNat val s))
  | setbright (idx : Byte) : Effect s (.setbright idx) (respond (.word 0) { s with bright := idx })
  | getedgeClear (idx : Byte) (r : Response) (hid : idx.toNat < 5) :
      Effect s (.getedge idx) (respond r (clearEdgeFlag ⟨idx.toNat, hid⟩ s))
  | getedgeSplit (idx : Byte) (r : Response) (hid : idx.toNat < 5) (hdeb : s.cfg.hasDebounce = true)
      (hsplit : s.cfg.getedgeAtomic = false) :
      Effect s (.getedge idx) (respond r { s with micro := .clearEdge ⟨idx.toNat, hid⟩ })
  | load (hscan : s.cfg.hasScan = true) (hready : s.ready ≠ 0) : Effect s .load (loadStep 0 s.ready s)
  | xstart (dir : Byte) (len : BitVec 16) :
      Effect s (.xstart dir len) (respond .none { s with xmax := clampLength len, xcnt := 0 })
  | xdata (bytes : List Byte) :
      Effect s (.xdata bytes) (respond .none
        { s with
          sb := Memory.writeBytes s.sb (chunkOffset s) (keptBytes bytes s)
          xcnt := s.xcnt + 1
          ready := readyAfterChunk (chunkOffset s) bytes.length s.xmax s.ready })

/-- A command of a family the build lacks is illegal (`30_encoding.md` rule R77 (e)). -/
theorem exec_familyAbsent {i : Instr} {s : State} (h : FamilyAbsent s.cfg i) :
    exec i s = .next (illegalCommand s) := by
  obtain ⟨hfam, habs⟩ | ⟨hfam, habs⟩ := h
  · have hoff : ¬ s.cfg.hasScan = true := by simp [habs]
    cases i with
    | sethex | setraw | setbright | load => exact if_neg hoff
    | nop | getlevel | getedge | rdbtn | tickgoal | tickreached | xstart | xdata | xget => exact hfam.elim
  · have hoff : ¬ s.cfg.hasDebounce = true := by simp [habs]
    cases i with
    | getlevel | getedge | rdbtn => exact if_neg hoff
    | nop | sethex | setraw | setbright | tickgoal | tickreached | load | xstart | xdata | xget => exact hfam.elim

theorem hasScan_of_not_familyAbsent {cfg : Config} {i : Instr} (h : ¬ FamilyAbsent cfg i) (hfam : ScanFamily i) :
    cfg.hasScan = true :=
  Bool.of_not_eq_false fun habs => h (.inl ⟨hfam, habs⟩)

theorem hasDebounce_of_not_familyAbsent {cfg : Config} {i : Instr} (h : ¬ FamilyAbsent cfg i)
    (hfam : DebounceFamily i) : cfg.hasDebounce = true :=
  Bool.of_not_eq_false fun habs => h (.inr ⟨hfam, habs⟩)

/-- A `GETEDGE` of a valid id that is not atomic answers the flag and leaves the clear in progress (`43_debouncer.md`
rule R157). -/
theorem exec_getedge_of_split {idx : Byte} {s : State} (hdeb : s.cfg.hasDebounce = true)
    (hsplit : s.cfg.getedgeAtomic = false) (hid : idx.toNat < 5) :
    exec (.getedge idx) s =
      .next (respond (bitResponse s.db[idx.toNat].edge) { s with micro := .clearEdge ⟨idx.toNat, hid⟩ }) := by
  rw [exec, execGetedge, if_pos hdeb, dif_pos hid, if_neg (by rw [hsplit]; exact Bool.false_ne_true)]

/-- A `LOAD` that finds `READY = 0` only answers 0 (`42_scratchpad_bridge.md` rule R135). -/
theorem exec_load_of_empty {s : State} (hscan : s.cfg.hasScan = true) (hready : s.ready = 0) :
    exec .load s = .next (respond (.word 0) s) := by
  rw [exec, execLoad, if_pos hscan, if_pos hready]

/-- A `LOAD` that finds `READY` set takes its first micro-step (rule R136). -/
theorem exec_load_of_ready {s : State} (hscan : s.cfg.hasScan = true) (hready : s.ready ≠ 0) :
    exec .load s = .next (loadStep 0 s.ready s) := by
  rw [exec, execLoad, if_pos hscan, if_neg hready]

/-- Every command and event answers a next state, by one of the effects (`60_exceptions.md` rule R180). -/
theorem exec_effect (i : Instr) (s : State) : ∃ t, exec i s = .next t ∧ Effect s i t := by
  by_cases habs : FamilyAbsent s.cfg i
  · exact ⟨_, exec_familyAbsent habs, .answer i _⟩
  have hscan := hasScan_of_not_familyAbsent habs
  have hdeb := hasDebounce_of_not_familyAbsent habs
  cases i with
  | nop => exact ⟨_, exec_nop s, .answer _ _⟩
  | sethex idx val => exact ⟨_, exec_sethex_of_hasScan idx val (hscan trivial), .sethex idx val⟩
  | setraw idx val => exact ⟨_, exec_setraw_of_hasScan idx val (hscan trivial), .setraw idx val⟩
  | setbright idx => exact ⟨_, if_pos (hscan trivial), .setbright idx⟩
  | getlevel idx => exact ⟨_, exec_getlevel_of_hasDebounce idx (hdeb trivial), .answer _ _⟩
  | getedge idx =>
    by_cases hid : idx.toNat < 5
    · cases hatomic : s.cfg.getedgeAtomic with
      | true => exact ⟨_, exec_getedge_of_atomic (hdeb trivial) hatomic hid, .getedgeClear idx _ hid⟩
      | false =>
        exact ⟨_, exec_getedge_of_split (hdeb trivial) hatomic hid, .getedgeSplit idx _ hid (hdeb trivial) hatomic⟩
    · exact ⟨_, exec_getedge_of_invalid (hdeb trivial) hid, .answer _ _⟩
  | rdbtn => exact ⟨_, exec_rdbtn_of_hasDebounce (hdeb trivial), .answer _ _⟩
  | tickgoal imm => exact ⟨_, exec_tickgoal imm s, .answer _ _⟩
  | tickreached imm => exact ⟨_, exec_tickreached imm s, .answer _ _⟩
  | load =>
    by_cases hready : s.ready = 0
    · exact ⟨_, exec_load_of_empty (hscan trivial) hready, .answer _ _⟩
    · exact ⟨_, exec_load_of_ready (hscan trivial) hready, .load (hscan trivial) hready⟩
  | xstart dir len => exact ⟨_, rfl, .xstart dir len⟩
  | xdata bytes =>
    by_cases hlen : bytes.length ≤ 8
    · exact ⟨_, exec_xdata_of_fits s hlen, .xdata bytes⟩
    · exact ⟨_, if_neg hlen, .answer _ _⟩
  | xget => exact ⟨_, rfl, .answer _ _⟩

/-! ### What a step can do -/

/-- What a step from `s` to `t` was: a tick, a micro-step, a foreground step that only answers (nothing to present, or
an illegal word), or a command or event. -/
inductive StepEffect (s : State) : State → Prop where
  | tick (btn : BitVec 5) (hturn : nextTurn s = .tick btn) : StepEffect s (tickStep btn (dropTurn s))
  | load (k : Fin 9) (r : Byte) (hturn : nextTurn s = .foreground) (hmicro : s.micro = .load k r) :
      StepEffect s (loadStep k r (dropTurn s))
  | clearEdge (id : Fin 5) (hturn : nextTurn s = .foreground) (hmicro : s.micro = .clearEdge id) :
      StepEffect s (clearEdgeStep id (dropTurn s))
  | answer (r : Response) (port : List PortWord) (hturn : nextTurn s = .foreground) (hmicro : s.micro = .idle) :
      StepEffect s (respond r { dropTurn s with port := port })
  | instr (w : PortWord) (rest : List PortWord) (i : Instr) (t : State) (hpres : Presents s w rest)
      (hdec : decode w = .instr i) (heff : Effect { dropTurn s with port := rest } i t) : StepEffect s t

/-- A presented word that decodes to an instruction is run as it (`30_encoding.md` rule R70). -/
theorem step_eq_exec {s : State} {w : PortWord} {rest : List PortWord} {i : Instr} (hpres : Presents s w rest)
    (hdec : decode w = .instr i) : step s = exec i { dropTurn s with port := rest } := by
  rw [step_eq_accept hpres, acceptWord, hdec]

/-- Rejecting a word only answers, on either port (`30_encoding.md` rule R77). -/
theorem illegalWord_eq (w : PortWord) (s : State) : illegalWord w s = respond (illegalResponse w) s := by
  cases w <;> rfl

/-- Every step answers a next state, by one of the effects. -/
theorem step_effect (s : State) : ∃ t, step s = .next t ∧ StepEffect s t := by
  obtain ⟨btn, hturn, hs⟩ | ⟨k, r, hturn, hmicro, hs⟩ | ⟨id, hturn, hmicro, hs⟩ | ⟨hturn, hmicro, -, hs⟩ |
    ⟨w, rest, why, ⟨hturn, hmicro, -⟩, -, hs⟩ | ⟨w, rest, i, hpres, hdec, hs⟩ := step_cases s
  · exact ⟨_, hs, .tick btn hturn⟩
  · exact ⟨_, hs, .load k r hturn hmicro⟩
  · exact ⟨_, hs, .clearEdge id hturn hmicro⟩
  · exact ⟨_, hs, .answer _ s.port hturn hmicro⟩
  · rw [illegalWord_eq] at hs
    exact ⟨_, hs, .answer _ rest hturn hmicro⟩
  · obtain ⟨t, ht, heff⟩ := exec_effect i { dropTurn s with port := rest }
    exact ⟨t, hs.trans ht, .instr w rest i t hpres hdec heff⟩

/-- The effect of a step, from its answer. -/
theorem effect_of_step {s t : State} (h : step s = .next t) : StepEffect s t := by
  obtain ⟨u, hu, he⟩ := step_effect s
  rw [hu] at h
  cases h
  exact he

/-- Settles O9: every command, every event and every step has an effect. -/
theorem everyStepCompletes : Obligations.EveryStepCompletes := by
  refine ⟨fun i s => ?_, fun s => ?_⟩
  · obtain ⟨t, ht, -⟩ := exec_effect i s
    exact ⟨t, ht⟩
  · obtain ⟨t, ht, -⟩ := step_effect s
    exact ⟨t, ht⟩

/-! ### The foreground's step -/

/-- The frame of a foreground step does not depend on the words that were still to be presented. -/
theorem ForegroundFrame.withPort {s t : State} (h : ForegroundFrame s t) :
    ForegroundFrame { s with port := t.port } t :=
  ⟨h.cfg, h.cur, h.pins, h.btn, h.ticks, h.tcmp, h.schedule, rfl, h.trace, h.level, h.count⟩

/-- A foreground step keeps the frame of the commands and events, with its turn taken and perhaps a word presented
(`10_state.md` rule R41). -/
theorem foregroundStep_frame {s t : State} (hturn : nextTurn s = .foreground) (h : step s = .next t) :
    ForegroundFrame { dropTurn s with port := t.port } t := by
  cases effect_of_step h with
  | tick btn htick => rw [hturn] at htick; cases htick
  | load k r => exact (loadStep_frame k r (dropTurn s)).withPort
  | clearEdge id => exact (clearEdgeStep_frame id (dropTurn s)).withPort
  | answer r port => exact respond_self_frame r _
  | instr w rest i _ hpres hdec => exact (exec_frame ((step_eq_exec hpres hdec).symm.trans h)).withPort

/-- Settles O46: the frame of a foreground step, field by field. -/
theorem foregroundWritesNoTickState : Obligations.ForegroundWritesNoTickState := by
  intro s t hturn h
  obtain ⟨-, hcur, hpins, hbtn, hticks, htcmp, hsched, -, htrace, hlevel, hcount⟩ := foregroundStep_frame hturn h
  exact ⟨⟨hcur, hpins⟩, ⟨hticks, htcmp, hbtn⟩, htrace, hsched, fun i => ⟨hlevel i, hcount i⟩⟩

/-- Settles O6: the presented word is accepted, which runs what it decodes to. -/
theorem stepRunsDecodedInstruction : Obligations.StepRunsDecodedInstruction :=
  fun _ _ _ _ hpres hdec => step_eq_exec hpres hdec

/-- A word placed next is presented at the next step. -/
theorem placeWord_presents (w : PortWord) (s : State) : Presents (placeWord w s) w s.port := ⟨rfl, rfl, rfl⟩

/-- Settles O7: a word the table reads is placed on its port and presented, and taking its turn and the word gives the
state it was placed in. -/
theorem placedWordRunsNext : Obligations.PlacedWordRunsNext := by
  intro s nbits w i h
  unfold decodeTableWord at h
  cases hp : tablePortWord nbits w with
  | none => rw [hp] at h; cases h
  | some p =>
    cases hd : decode p with
    | illegal why => simp only [hp, hd] at h; cases h
    | instr j =>
      simp only [hp, hd] at h
      cases h
      rw [State.withFetchWord, hp]
      exact step_eq_exec (placeWord_presents p s) hd

/-! ### Illegal commands -/

/-- The transport port carries no command of the scan or the debounce family. -/
theorem decodeTransport_family {t : TransportWord} {i : Instr} (h : decodeTransport t = .instr i) :
    ¬ ScanFamily i ∧ ¬ DebounceFamily i := by
  unfold decodeTransport at h
  split at h
  · cases h; exact ⟨id, id⟩
  · split at h
    · split at h <;> cases h
      exact ⟨id, id⟩
    · split at h <;> cases h
      exact ⟨id, id⟩

/-- Settles O8: an illegal form is rejected by the decoder, an absent family by the command's meaning; both only
answer. -/
theorem illegalCommandsChangeNothing : Obligations.IllegalCommandsChangeNothing := by
  intro s w rest hpres hillegal
  refine ⟨_, ?_, rfl, rfl, respond_unchanged (illegalResponse w) _⟩
  rw [step_eq_accept hpres, acceptWord]
  obtain hform | ⟨i, hdec, habs⟩ := hillegal
  · obtain ⟨why, hdec⟩ := (decoderRejectsExactlyIllegalForms w).2 hform
    rw [hdec, ← illegalWord_eq]
    rfl
  · cases w with
    | command c =>
      simp only [hdec]
      exact exec_familyAbsent habs
    | transport t =>
      obtain ⟨hscan, hdeb⟩ := decodeTransport_family hdec
      obtain ⟨hfam, -⟩ | ⟨hfam, -⟩ := habs
      · exact absurd hfam hscan
      · exact absurd hfam hdeb

end Sys2Proof.Machine
end

section

namespace Sys2Proof.Machine

open Sys2Proof

/-! ### What a micro-step of a load leaves alone -/

@[simp] theorem loadStep_cfg (k : Fin 9) (r : Byte) (s : State) : (loadStep k r s).cfg = s.cfg := by
  unfold loadStep; split <;> simp
@[simp] theorem loadStep_bright (k : Fin 9) (r : Byte) (s : State) : (loadStep k r s).bright = s.bright := by
  unfold loadStep; split <;> simp
@[simp] theorem loadStep_db (k : Fin 9) (r : Byte) (s : State) : (loadStep k r s).db = s.db := by
  unfold loadStep; split <;> simp
@[simp] theorem loadStep_sb (k : Fin 9) (r : Byte) (s : State) : (loadStep k r s).sb = s.sb := by
  unfold loadStep; split <;> simp
@[simp] theorem loadStep_xmax (k : Fin 9) (r : Byte) (s : State) : (loadStep k r s).xmax = s.xmax := by
  unfold loadStep; split <;> simp
@[simp] theorem loadStep_xcnt (k : Fin 9) (r : Byte) (s : State) : (loadStep k r s).xcnt = s.xcnt := by
  unfold loadStep; split <;> simp

/-! ### The invariant -/

/-- A tick leaves the serial lines low if they were (`10_state.md` rule R40). -/
theorem tickStep_lines_low (btn : BitVec 5) {s : State} (hclk : s.pins.sclk = false) (hlat : s.pins.slatch = false) :
    (tickStep btn s).pins.sclk = false ∧ (tickStep btn s).pins.slatch = false := by
  rw [tickStep_pins]
  split
  · exact scanStep_lines_low _
  · exact ⟨hclk, hlat⟩

/-- Every step leaves the serial lines low if they were. -/
theorem step_lines_low {s t : State} (h : step s = .next t) (hclk : s.pins.sclk = false)
    (hlat : s.pins.slatch = false) : t.pins.sclk = false ∧ t.pins.slatch = false := by
  cases hturn : nextTurn s with
  | tick btn =>
    rw [step_eq_tick hturn] at h
    cases h
    exact tickStep_lines_low btn hclk hlat
  | foreground =>
    have hpins : t.pins = s.pins := (foregroundStep_frame hturn h).pins
    rw [hpins]
    exact ⟨hclk, hlat⟩

/-- Every step keeps the ScratchBuffer's canonical form: only an `XDATA` writes the buffer. -/
theorem step_keeps_wf {s t : State} (h : step s = .next t) (hwf : Memory.wf s.sb = true) : Memory.wf t.sb = true := by
  cases effect_of_step h with
  | tick => simpa using hwf
  | load => simpa using hwf
  | clearEdge => exact hwf
  | answer => exact hwf
  | instr w rest i _ _ _ heff =>
    cases heff with
    | xdata bytes => exact Memory.wf_writeBytes _ _ hwf
    | sethex | setraw | load => simpa using hwf
    | answer | setbright | getedgeClear | getedgeSplit | xstart => exact hwf

/-- The micro-step that a micro-step of `LOAD` leaves is one of that `LOAD`, until the last leaves none
(`42_scratchpad_bridge.md` rule R136). -/
theorem loadStep_microInv (k : Fin 9) {s : State} (hscan : s.cfg.hasScan = true) (hready : s.ready ≠ 0) :
    microInv (loadStep k s.ready s) := by
  by_cases hk : k.val < 8
  · have hpos : 0 < (k + 1).val := by
      rw [Fin.val_add_one_of_lt (Fin.lt_def.2 hk)]
      exact Nat.succ_pos _
    rw [loadStep_digit hk]
    exact ⟨by simpa using hscan, hpos, by simp, hready⟩
  · rw [loadStep_last hk]
    exact trivial

/-- What a command or event leaves in progress is its own second micro-step. -/
theorem Effect.microInv {i : Instr} {s t : State} (h : Effect s i t) (hidle : s.micro = .idle) : microInv t := by
  cases h with
  | load hscan hready => exact loadStep_microInv 0 hscan hready
  | getedgeSplit idx r hid hdeb hsplit => exact ⟨hdeb, hsplit⟩
  | answer | sethex | setraw | setbright | getedgeClear | xstart | xdata => simp [Machine.microInv, hidle]

/-- Every step keeps what the invariant says of a micro-step in progress. -/
theorem step_keeps_microInv {s t : State} (h : step s = .next t) (hinv : microInv s) : microInv t := by
  cases effect_of_step h with
  | tick btn => simpa [microInv] using hinv
  | load k r hturn hmicro =>
    simp only [microInv, hmicro] at hinv
    obtain ⟨hscan, -, rfl, hready⟩ := hinv
    exact loadStep_microInv k (s := dropTurn s) hscan hready
  | clearEdge => exact trivial
  | answer r port hturn hmicro => simp [microInv, hmicro]
  | instr w rest i _ hpres _ heff => exact heff.microInv hpres.2.1

/-- Settles O51: each part of the invariant is kept by a lemma of its own; the parameters are constant. -/
theorem everyStepKeepsInvariant : Obligations.EveryStepKeepsInvariant := by
  intro s t ⟨hclk, hlat, hwf, hsegmap, hmicro⟩ h
  obtain ⟨hclk', hlat'⟩ := step_lines_low h hclk hlat
  have hcfg : t.cfg = s.cfg := parametersAreConstant s t h
  exact ⟨hclk', hlat', step_keeps_wf h hwf, hcfg ▸ hsegmap, step_keeps_microInv h hmicro⟩

/-- Settles O52: at reset the lines are low, the buffer lists nothing and no micro-step is in progress. -/
theorem invariantHoldsAtReset : Obligations.InvariantHoldsAtReset := by
  have hreset (cfg : Config) (pu : PowerUp) (h : cfg.wf = true) : Inv (State.resetWith cfg pu) :=
    ⟨rfl, rfl, Memory.wf_resetWith cfg pu, h, trivial⟩
  exact ⟨hreset _ _ (by decide), hreset⟩

/-- Settles O53: the fields of `State.resetWith` read off; the two vectors hold one value throughout. -/
theorem resetLeavesDecidedValues : Obligations.ResetLeavesDecidedValues := by
  intro cfg pu
  have hdig (k : Fin 8) : (State.resetWith cfg pu).dig[k] = 0x00 := Vector.getElem_replicate k.isLt
  have hdb (i : Fin 5) : (State.resetWith cfg pu).db[i] = { state := false, cnt := 0, edge := false } :=
    Vector.getElem_replicate i.isLt
  refine ⟨hdig, rfl, fun i => ?_, rfl, fun _ => rfl, rfl, rfl, rfl, rfl, rfl, rfl, rfl, rfl, rfl, rfl, rfl, rfl⟩
  rw [hdb i]
  exact ⟨rfl, rfl, rfl⟩

/-! ### The canonical form of the ScratchBuffer -/

/-- A canonical list begins with a listed offset: the bound can be raised to it. -/
theorem Memory.wfFrom_head {bound a : Nat} {b : Byte} {m : Memory} (h : Memory.wfFrom bound ((a, b) :: m) = true) :
    Memory.wfFrom a ((a, b) :: m) = true :=
  Memory.wfFrom_cons.2 ⟨Nat.le_refl a, (Memory.wfFrom_cons.1 h).2⟩

@[simp] theorem Memory.read_head (a : Nat) (b : Byte) (m : Memory) : Memory.read ((a, b) :: m) a = b := by
  rw [Memory.read_cons, if_pos rfl]

/-- Of two canonical lists that read alike neither begins before the other. -/
theorem Memory.head_le {lo lo' a a' : Nat} {b b' : Byte} {m m' : Memory}
    (hm : Memory.wfFrom lo ((a, b) :: m) = true) (hm' : Memory.wfFrom lo' ((a', b') :: m') = true)
    (hread : ∀ x, Memory.read ((a, b) :: m) x = Memory.read ((a', b') :: m') x) : a' ≤ a := by
  obtain ⟨-, -, hb, -⟩ := Memory.wfFrom_cons.1 hm
  by_contra hlt
  have hunlisted := Memory.read_below (Memory.wfFrom_head hm') (Nat.lt_of_not_le hlt)
  rw [← hread a, Memory.read_head] at hunlisted
  exact hb hunlisted

/-- A canonical list that reads unlisted everywhere is empty. -/
theorem Memory.eq_nil_of_read {lo : Nat} {m : Memory} (hm : Memory.wfFrom lo m = true)
    (hread : ∀ x, Memory.read m x = Memory.unlisted) : m = [] := by
  cases m with
  | nil => rfl
  | cons cell m =>
    obtain ⟨a, b⟩ := cell
    obtain ⟨-, -, hb, -⟩ := Memory.wfFrom_cons.1 hm
    exact absurd ((Memory.read_head a b m).symm.trans (hread a)) hb

/-- Lists canonical from one bound on that read alike are equal. -/
theorem Memory.eq_of_read {lo : Nat} {m m' : Memory} (hm : Memory.wfFrom lo m = true)
    (hm' : Memory.wfFrom lo m' = true) (hread : ∀ x, Memory.read m x = Memory.read m' x) : m = m' := by
  induction m generalizing lo m' with
  | nil => exact (Memory.eq_nil_of_read hm' fun x => (hread x).symm).symm
  | cons cell m ih =>
    obtain ⟨a, b⟩ := cell
    cases m' with
    | nil => exact Memory.eq_nil_of_read hm hread
    | cons cell' m' =>
      obtain ⟨a', b'⟩ := cell'
      have hoff : a = a' :=
        Nat.le_antisymm (Memory.head_le hm' hm fun x => (hread x).symm) (Memory.head_le hm hm' hread)
      subst hoff
      have hbyte : b = b' := by simpa using hread a
      subst hbyte
      obtain ⟨-, -, -, htail⟩ := Memory.wfFrom_cons.1 hm
      obtain ⟨-, -, -, htail'⟩ := Memory.wfFrom_cons.1 hm'
      refine congrArg _ (ih htail htail' fun x => ?_)
      by_cases hx : x ≤ a
      · rw [Memory.read_below htail (Nat.lt_succ_of_le hx), Memory.read_below htail' (Nat.lt_succ_of_le hx)]
      · have hne : a ≠ x := by omega
        simpa only [Memory.read_cons, if_neg hne] using hread x

/-- Settles O54: equality of canonical lists from offset 0 on. -/
theorem canonicalBuffersAreEqualData : Obligations.CanonicalBuffersAreEqualData :=
  fun _ _ hm hm' hread => Memory.eq_of_read hm hm' hread

end Sys2Proof.Machine
end

section

namespace Sys2Proof.Machine

open Sys2Proof

/-! ### Runs -/

/-- A run with one more step at its end. -/
theorem runSteps_snoc {s t u : State} {n : Nat} (hrun : runSteps n s = .next t) (h : step t = .next u) :
    runSteps (n + 1) s = .next u := by
  rw [runSteps_add n 1 hrun, runSteps_succ 0 h, runSteps_zero]

/-- Every step takes its turn from the environment's list, and no other (`00_scope.md` rule R6). -/
theorem step_schedule {s t : State} (h : step s = .next t) : t.schedule = s.schedule.tail := by
  cases hturn : nextTurn s with
  | tick btn =>
    rw [step_eq_tick hturn] at h
    cases h
    simp
  | foreground => exact (foregroundStep_frame hturn h).schedule

/-- The counts that `run_counts` carries along a run of `turns`: `J` of the ticks and the foreground turns taken so far,
with `rem` still to come. -/
def CountsSoFar (J : Nat → Nat → State → Prop) (turns : List Turn) (t : State) (rem : List Turn) : Prop :=
  ∃ n f, n + tickTurns rem = tickTurns turns ∧ f + foregroundTurns rem = foregroundTurns turns ∧
    (∀ turn ∈ rem, turn ∈ turns) ∧ J n f t

/-- The induction over the environment's turns by counting them: what holds of no turn taken, and is carried over by
each tick and by each foreground step with its count, holds of all the turns after the run. -/
theorem run_counts (J : Nat → Nat → State → Prop) {s : State} {turns more : List Turn}
    (hsched : s.schedule = turns ++ more) (hstart : J 0 0 s)
    (htick : ∀ (n f : Nat) (t : State) (btn : BitVec 5), n < tickTurns turns → .tick btn ∈ turns → J n f t →
      J (n + 1) f (tickStep btn (dropTurn t)))
    (hfore : ∀ (n f : Nat) (t u : State), f < foregroundTurns turns → nextTurn t = .foreground → step t = .next u →
      J n f t → J n (f + 1) u) :
    ∃ t, runSteps turns.length s = .next t ∧ t.schedule = more ∧ J (tickTurns turns) (foregroundTurns turns) t := by
  have hstep (t : State) (turn : Turn) (rem : List Turn) (hs : t.schedule = turn :: (rem ++ more))
      (hI : CountsSoFar J turns t (turn :: rem)) :
      ∃ u, step t = .next u ∧ u.schedule = rem ++ more ∧ CountsSoFar J turns u rem := by
    obtain ⟨n, f, hn, hf, hmem, hJ⟩ := hI
    have hturn : nextTurn t = turn := nextTurn_of_schedule hs
    have hrem : ∀ turn ∈ rem, turn ∈ turns := fun _ h => hmem _ (List.mem_cons_of_mem _ h)
    obtain ⟨u, hu, -⟩ := step_effect t
    refine ⟨u, hu, by rw [step_schedule hu, hs, List.tail_cons], ?_⟩
    cases turn with
    | tick btn =>
      rw [step_eq_tick hturn] at hu
      cases hu
      simp only [tickTurns, foregroundTurns] at hn hf
      exact ⟨n + 1, f, by omega, hf, hrem, htick n f t btn (by omega) (hmem _ List.mem_cons_self) hJ⟩
    | foreground =>
      simp only [tickTurns, foregroundTurns] at hn hf
      exact ⟨n, f + 1, hn, by omega, hrem, hfore n f t u (by omega) hturn hu hJ⟩
  obtain ⟨t, hrun, hts, n, f, hn, hf, -, hJ⟩ := run_invariant (CountsSoFar J turns) more hstep turns s hsched
    ⟨0, 0, Nat.zero_add _, Nat.zero_add _, fun _ h => h, hstart⟩
  cases hn
  cases hf
  exact ⟨t, hrun, hts, hJ⟩

/-! ### The tick step -/

/-- What a scan step does to the pins rests on the parameters, the digits, the cursor and the pins alone: a tick's own
bookkeeping before it does not matter. -/
theorem scanStep_takeTick_pins (btn : BitVec 5) (s : State) :
    (scanStep (takeTick btn (dropTurn s))).pins = (scanStep s).pins := by
  by_cases h : s.cur.val < 8
  · rw [scanStep_eq_digit s h, scanStep_eq_digit (takeTick btn (dropTurn s)) h]
    rfl
  · rw [scanStep_eq_idle s h, scanStep_eq_idle (takeTick btn (dropTurn s)) h]
    rfl

/-- With the scan engine a tick leaves the pins of the scan step. -/
theorem tick_pins (btn : BitVec 5) {s : State} (hscan : s.cfg.hasScan = true) :
    (tickStep btn (dropTurn s)).pins = (scanStep s).pins := by
  rw [tickStep_pins, if_pos (by simpa using hscan), scanStep_takeTick_pins]

/-- With the scan engine a tick's trace is that of the scan step. -/
theorem tick_trace (btn : BitVec 5) {s : State} (hscan : s.cfg.hasScan = true) :
    (tickStep btn (dropTurn s)).trace = scanEvents s := by
  rw [tickStep_trace, if_pos (by simpa using hscan)]
  rfl

/-- With the scan engine a tick advances the cursor. -/
theorem tick_cur (btn : BitVec 5) {s : State} (hscan : s.cfg.hasScan = true) :
    (tickStep btn (dropTurn s)).cur = s.cur + 1 := by
  rw [tickStep_cur, if_pos (by simpa using hscan), dropTurn_cur]

/-- Settles O22: the fields a tick writes and leaves, with the scan and the sample step absent where the build lacks
them. -/
theorem tickStepFrame : Obligations.TickStepFrame := by
  intro s btn hturn
  refine ⟨_, step_eq_tick hturn, by simp, by simp, by simp, by simp, by simp, by simp, by simp, by simp,
    fun _ => by simp, by simp, ⟨by simp, by simp, by simp⟩, fun _ => by simp, fun hscan => ?_, fun hdeb i => ?_⟩
  · simp [SameScanner, tickStep_cur, tickStep_pins, tickStep_trace, hscan]
  · rw [tickStep_db]
    simp [hdeb]

/-! ### The counters over a run -/

/-- What `n` serviced ticks do to the counters, from `s` to `t`. -/
structure Serviced (s : State) (n : Nat) (t : State) : Prop where
  cfg : t.cfg = s.cfg
  cur : t.cur.val = if s.cfg.hasScan then (s.cur.val + n) % 12 else s.cur.val
  ticks : t.ticks = s.ticks + BitVec.ofNat 32 n
  tcmp : t.tcmp = s.tcmp + BitVec.ofNat 32 n * s.cfg.tickInterval

theorem Serviced.none (s : State) : Serviced s 0 s := by
  refine ⟨rfl, ?_, by simp, by simp⟩
  rw [Nat.add_zero, Nat.mod_eq_of_lt s.cur.isLt, ite_self]

/-- A tick is one more serviced tick. -/
theorem Serviced.tick {s t : State} {n : Nat} (h : Serviced s n t) (btn : BitVec 5) :
    Serviced s (n + 1) (tickStep btn (dropTurn t)) := by
  obtain ⟨hcfg, hcur, hticks, htcmp⟩ := h
  refine ⟨by simpa using hcfg, ?_, ?_, ?_⟩
  · by_cases hscan : s.cfg.hasScan = true
    · rw [if_pos hscan] at hcur
      rw [if_pos hscan, tick_cur btn (hcfg ▸ hscan), Fin.val_add, hcur]
      exact Nat.mod_add_mod _ 12 1
    · rw [if_neg hscan] at hcur
      rw [if_neg hscan, tickStep_cur, dropTurn_cfg, hcfg, if_neg hscan, dropTurn_cur, hcur]
  · rw [tickStep_ticks, dropTurn_ticks, hticks, BitVec.ofNat_add, BitVec.add_assoc]
    rfl
  · rw [tickStep_tcmp, dropTurn_tcmp, dropTurn_cfg, hcfg, htcmp, BitVec.ofNat_add, BitVec.add_mul, BitVec.one_mul,
      BitVec.add_assoc]

/-- A foreground step services no tick. -/
theorem Serviced.foreground {s t u : State} {n : Nat} (h : Serviced s n t) (hturn : nextTurn t = .foreground)
    (hstep : step t = .next u) : Serviced s n u := by
  obtain ⟨hcfg, hcur, hticks, htcmp⟩ := h
  have hframe := foregroundStep_frame hturn hstep
  exact ⟨hframe.cfg.trans hcfg, by rw [hframe.cur]; exact hcur, hframe.ticks.trans hticks, hframe.tcmp.trans htcmp⟩

/-- Any turns service the ticks among them. -/
theorem run_serviced {s : State} {turns more : List Turn} (hsched : s.schedule = turns ++ more) :
    ∃ t, runSteps turns.length s = .next t ∧ t.schedule = more ∧ Serviced s (tickTurns turns) t :=
  run_counts (fun n _ t => Serviced s n t) hsched (.none s) (fun _ _ _ btn _ _ h => h.tick btn)
    fun _ _ _ _ _ hturn hstep h => h.foreground hturn hstep

/-- Settles O17: the counters after the ticks among any turns. -/
theorem countersCountServicedTicks : Obligations.CountersCountServicedTicks := by
  intro s turns more hsched
  obtain ⟨t, hrun, hmore, -, hcur, hticks, htcmp⟩ := run_serviced hsched
  exact ⟨t, hrun, hmore, hcur, hticks, htcmp⟩

end Sys2Proof.Machine
end

section

namespace Sys2Proof.Machine

open Sys2Proof

/-! ### The scan step on the pins -/

/-- The select byte as a power of two (`41_scan_engine.md` rule R113). -/
theorem selectOf_eq_pow (c : Fin 12) : selectOf c = if c.val < 8 then BitVec.ofNat 8 (2 ^ c.val) else 0x00 := by
  revert c
  decide

/-- The last bit sent is that of digit 0's select byte alone. -/
theorem selectByte_bit_zero (c : Fin 12) : (selectByte c.val).getLsbD 0 = decide (c.val = 0) := by
  revert c
  decide

/-- `SDATA` after a scan step (rule R113). -/
theorem scanStep_sdata (s : State) : (scanStep s).pins.sdata = decide (s.cur.val = 0) := by
  by_cases h : s.cur.val < 8
  · rw [scanStep_eq_digit s h]
    exact selectByte_bit_zero s.cur
  · have hne : s.cur.val ≠ 0 := by omega
    rw [scanStep_eq_idle s h, decide_eq_false hne]

/-- The cursor's advance as a number: 11 goes to 0 (rule R110). -/
theorem cursor_succ_val (c : Fin 12) : (c + 1).val = if c.val = 11 then 0 else c.val + 1 := by
  revert c
  decide

/-- Settles O14: the pins of the scan step one by one. -/
theorem scanStepPresentsDigit : Obligations.ScanStepPresentsDigit := by
  intro s btn hturn hscan
  obtain ⟨hsr, hdsel⟩ := scanStep_selects s
  obtain ⟨hclk, hlat⟩ := scanStep_lines_low s
  refine ⟨_, step_eq_tick hturn, ?_⟩
  rw [tick_pins btn hscan, tick_cur btn hscan]
  exact ⟨by rw [hdsel, selectOf_eq_pow], hsr.trans hdsel.symm, scanStep_pseg s, scanStep_sdata s, hclk, hlat,
    cursor_succ_val s.cur, fun _ => by simp, by simp⟩

/-! ### The pin trace -/

theorem shiftEvents_length (b : Byte) : (shiftEvents b).length = 24 := rfl

/-- The trace of a digit slot. -/
theorem scanEvents_digit {s : State} (h : s.cur.val < 8) :
    scanEvents s = shiftEvents 0x00 ++ latchEvents ++
      .seg (segmap s.cfg (s.dig[s.cur.val]'h)) :: (shiftEvents (selectByte s.cur.val) ++ latchEvents) := by
  rw [scanEvents, dif_pos h]

/-- The trace of an idle slot. -/
theorem scanEvents_idle {s : State} (h : ¬ s.cur.val < 8) : scanEvents s = shiftEvents 0x00 ++ latchEvents := by
  rw [scanEvents, dif_neg h, List.append_nil]

/-- A scan step drives 53 events in a digit slot, 26 in an idle one (rule R109). -/
theorem scanEvents_length (s : State) : (scanEvents s).length = if s.cur.val < 8 then 53 else 26 := by
  by_cases h : s.cur.val < 8
  · rw [scanEvents_digit h, if_pos h]
    rfl
  · rw [scanEvents_idle h, if_neg h]
    rfl

/-- The events of `ShiftOut(b)` leave `b` in the shift stage, with the clock low and the last bit sent on `SDATA` (rule
R106). -/
theorem applyAll_shiftEvents (p : Pins) (b : Byte) :
    p.applyAll (shiftEvents b) = { p with sdata := b.getLsbD 0, sclk := false, sr := b } := by
  have hsr := shiftIn_eight p.sr b
  simp only [shiftEvents, shiftOrder, List.flatMap_cons, List.flatMap_nil, List.cons_append, List.nil_append,
    Pins.applyAll_cons, Pins.applyAll_nil, Pins.apply, hsr]

/-- The events of `LatchPulse()` copy the shift stage to the outputs (rule R107). -/
theorem applyAll_latchEvents (p : Pins) : p.applyAll latchEvents = { p with slatch := false, dsel := p.sr } := rfl

/-- The trace of a scan step, applied to the pins before it, gives the pins after it. -/
theorem applyAll_scanEvents (s : State) : s.pins.applyAll (scanEvents s) = (scanStep s).pins := by
  by_cases h : s.cur.val < 8
  · rw [scanEvents_digit h, scanStep_eq_digit s h]
    simp only [Pins.applyAll_append, Pins.applyAll_cons, applyAll_shiftEvents, applyAll_latchEvents, Pins.apply]
  · rw [scanEvents_idle h, scanStep_eq_idle s h, Pins.applyAll_append, applyAll_shiftEvents, applyAll_latchEvents]
    rfl

/-- Settles O15: a tick's trace is the scan step's, and drives the pins to the scan step's. -/
theorem scanTraceDrivesThePins : Obligations.ScanTraceDrivesThePins := by
  intro s btn hturn hscan
  refine ⟨_, step_eq_tick hturn, ?_⟩
  rw [tick_trace btn hscan, tick_pins btn hscan]
  exact ⟨rfl, scanEvents_length s, applyAll_scanEvents s⟩

/-! ### The selects -/

/-- With the scan engine a tick leaves the selects of the slot it presented. -/
theorem tick_scanned (btn : BitVec 5) {s : State} (hscan : s.cfg.hasScan = true) :
    Scanned (tickStep btn (dropTurn s)) := by
  obtain ⟨hsr, hdsel⟩ := scanStep_selects s
  rw [Scanned, tick_pins btn hscan, tick_cur btn hscan, hsr, hdsel, add_sub_cancel_right]
  exact ⟨rfl, rfl⟩

/-- The selects stay as they are where neither the pins nor the cursor move. -/
theorem Scanned.of_eq {s t : State} (h : Scanned s) (hpins : t.pins = s.pins) (hcur : t.cur = s.cur) : Scanned t := by
  rw [Scanned, hpins, hcur]
  exact h

/-- A slot selects one digit or none. -/
theorem selectOf_zeroOrOneHot (c : Fin 12) : ZeroOrOneHot (selectOf c) := by
  by_cases h : c.val < 8
  · exact .inr ⟨⟨c.val, h⟩, if_pos h⟩
  · exact .inl (if_neg h)

/-- Settles O19: a tick presents its slot or, without the scan engine, moves nothing; the foreground moves nothing. -/
theorem selectsStayZeroOrOneHot : Obligations.SelectsStayZeroOrOneHot := by
  refine ⟨fun s t btn hturn hscan h => ?_, fun s t hs h => ?_, fun s ⟨hsr, hdsel⟩ => ⟨hsr, ?_⟩⟩
  · rw [step_eq_tick hturn] at h
    cases h
    exact tick_scanned btn hscan
  · cases hturn : nextTurn s with
    | tick btn =>
      rw [step_eq_tick hturn] at h
      cases h
      by_cases hscan : s.cfg.hasScan = true
      · exact tick_scanned btn hscan
      · exact hs.of_eq (by rw [tickStep_pins, if_neg (by simpa using hscan), dropTurn_pins])
          (by rw [tickStep_cur, if_neg (by simpa using hscan), dropTurn_cur])
    | foreground =>
      have hframe := foregroundStep_frame hturn h
      exact hs.of_eq hframe.pins hframe.cur
  · rw [hdsel]
    exact selectOf_zeroOrOneHot _

/-! ### The segment map -/

/-- One bit of a pattern lands on its line alone. -/
theorem getLsbD_segmapBit (cfg : Config) (p : Byte) (i : Fin 8) (j : Nat) :
    (segmapBit cfg p i).getLsbD j = (p.getLsbD i && decide ((cfg.segmap[i]).val = j)) := by
  have hline : (cfg.segmap[i]).val < 8 := (cfg.segmap[i]).isLt
  unfold segmapBit
  cases p.getLsbD i with
  | false => exact BitVec.getLsbD_zero
  | true =>
    rw [if_pos rfl, ← BitVec.twoPow_eq, BitVec.getLsbD_twoPow, decide_eq_true hline, Bool.true_and]

/-- A line is driven exactly if a set bit of the pattern is mapped to it (rule R108). -/
theorem getLsbD_segmap_iff (cfg : Config) (p : Byte) (j : Nat) :
    (segmap cfg p).getLsbD j = true ↔ ∃ i : Fin 8, p.getLsbD i = true ∧ (cfg.segmap[i]).val = j := by
  have hbit (i : Fin 8) : (segmapBit cfg p i).getLsbD j = true ↔ p.getLsbD i = true ∧ (cfg.segmap[i]).val = j := by
    rw [getLsbD_segmapBit, Bool.and_eq_true, decide_eq_true_iff]
  simp only [segmap, BitVec.getLsbD_or, Bool.or_eq_true, hbit]
  constructor
  · rintro (((((((h | h) | h) | h) | h) | h) | h) | h) <;> exact ⟨_, h⟩
  · rintro ⟨i, h⟩
    match i with
    | 0 | 1 | 2 | 3 | 4 | 5 | 6 | 7 => simp only [h, and_self, true_or, or_true]

/-- A permutation sends different pattern bits to different lines. -/
theorem segmap_lines_injective {cfg : Config} (h : cfg.wf = true) :
    Function.Injective fun i : Fin 8 => cfg.segmap[i] := by
  have hnodup : cfg.segmap.toList.Nodup := of_decide_eq_true h
  intro i j hij
  have hlist : cfg.segmap.toList[i.val]'(by simp) = cfg.segmap.toList[j.val]'(by simp) := by
    simpa using hij
  exact Fin.ext ((hnodup.getElem_inj_iff).1 hlist)

/-- Bit `i` of a pattern is bit `SEGMAP[i]` of its lines. -/
theorem getLsbD_segmap {cfg : Config} (h : cfg.wf = true) (p : Byte) (i : Fin 8) :
    (segmap cfg p).getLsbD (cfg.segmap[i]).val = p.getLsbD i.val := by
  rw [Bool.eq_iff_iff, getLsbD_segmap_iff]
  constructor
  · rintro ⟨k, hbit, hline⟩
    rwa [segmap_lines_injective h (Fin.ext hline)] at hbit
  · exact fun hbit => ⟨i, hbit, rfl⟩

/-- The dark pattern drives no line, whatever the map. -/
theorem segmap_zero (cfg : Config) : segmap cfg 0x00 = 0x00 := by
  simp [segmap, segmapBit]

/-- The full pattern drives every line: a permutation reaches each. -/
theorem segmap_full {cfg : Config} (h : cfg.wf = true) : segmap cfg 0xFF = 0xFF := by
  apply BitVec.eq_of_getLsbD_eq
  intro j hj
  obtain ⟨i, hi⟩ := Finite.injective_iff_surjective.1 (segmap_lines_injective h) ⟨j, hj⟩
  have hfull : ∀ k : Fin 8, (0xFF : Byte).getLsbD k.val = true := by decide
  rw [hfull ⟨j, hj⟩, getLsbD_segmap_iff]
  exact ⟨i, hfull i, congrArg Fin.val hi⟩
/-- Settles O20: each pattern bit has a line of its own. -/
theorem segmapPermutesBits : Obligations.SegmapPermutesBits := by
  intro cfg hwf
  refine ⟨getLsbD_segmap hwf, fun p q hpq => ?_, segmap_zero cfg, segmap_full hwf⟩
  apply BitVec.eq_of_getLsbD_eq
  intro i hi
  have hp := getLsbD_segmap hwf p ⟨i, hi⟩
  rw [hpq, getLsbD_segmap hwf q ⟨i, hi⟩] at hp
  exact hp.symm

end Sys2Proof.Machine
end

section

namespace Sys2Proof.Machine

open Sys2Proof

/-! ### What the outputs show at every point of a scan step's trace -/

/-- Only `LAT(1)` writes `DSEL` (`41_scan_engine.md` rule R107). -/
theorem applyAll_dsel {es : List PinEvent} (p : Pins) (h : .lat true ∉ es) : (p.applyAll es).dsel = p.dsel := by
  induction es generalizing p with
  | nil => rfl
  | cons e es ih =>
    rw [Pins.applyAll_cons, ih _ fun hmem => h (List.mem_cons_of_mem e hmem)]
    match e, h with
    | .seg _, _ | .data _, _ | .clk true, _ | .clk false, _ | .lat false, _ => rfl
    | .lat true, h => exact absurd List.mem_cons_self h

/-- Only `SEG` writes `PSEG` (rule R105). -/
theorem applyAll_pseg {es : List PinEvent} (p : Pins) (h : ∀ v, .seg v ∉ es) : (p.applyAll es).pseg = p.pseg := by
  induction es generalizing p with
  | nil => rfl
  | cons e es ih =>
    rw [Pins.applyAll_cons, ih _ fun v hmem => h v (List.mem_cons_of_mem e hmem)]
    match e, h with
    | .data _, _ | .clk true, _ | .clk false, _ | .lat true, _ | .lat false, _ => rfl
    | .seg v, h => exact absurd List.mem_cons_self (h v)

theorem lat_not_mem_shiftEvents (b : Byte) (c : Bool) : .lat c ∉ shiftEvents b := by
  simp [shiftEvents]

theorem seg_not_mem_shiftEvents (b v : Byte) : .seg v ∉ shiftEvents b := by
  simp [shiftEvents]

/-- The events of a scan step between its first latch pulse's rise and its second latch pulse, if it has one: the rest
of the blanking, and in a digit slot the pattern and the select byte's shift. -/
def darkEvents (s : State) : List PinEvent :=
  .lat false ::
    if h : s.cur.val < 8 then .seg (segmap s.cfg (s.dig[s.cur.val]'h)) :: shiftEvents (selectByte s.cur.val) else []

/-- The second latch pulse of a scan step, in a digit slot. -/
def lightEvents (s : State) : List PinEvent := if s.cur.val < 8 then latchEvents else []

/-- A scan step's trace cut at its latch pulses. -/
theorem scanEvents_eq (s : State) :
    scanEvents s = shiftEvents 0x00 ++ .lat true :: (darkEvents s ++ lightEvents s) := by
  by_cases h : s.cur.val < 8
  · simp only [scanEvents_digit h, darkEvents, lightEvents, dif_pos h, if_pos h, latchEvents, List.append_assoc,
      List.cons_append, List.nil_append]
  · simp only [scanEvents_idle h, darkEvents, lightEvents, dif_neg h, if_neg h, latchEvents, List.append_nil]

theorem latch_not_mem_darkEvents (s : State) : .lat true ∉ darkEvents s := by
  unfold darkEvents
  split <;> simp [lat_not_mem_shiftEvents]

/-- With nothing selected the pins show nothing until the next latch pulse. -/
theorem shows_of_dark {s : State} {p : Pins} {es : List PinEvent} (hdark : p.dsel = 0x00) (h : .lat true ∉ es) :
    Shows s (p.applyAll es) :=
  .inl ((applyAll_dsel p h).trans hdark)

/-- The second latch pulse selects the cursor's digit, whose pattern is on the lines, from its first event on. -/
theorem shows_of_light (s : State) (p : Pins) {k : Nat} (hk : 0 < k) (hlit : s.cur.val < 8) :
    Shows s ((p.applyAll (darkEvents s)).applyAll ((lightEvents s).take k)) := by
  refine .inr ⟨hlit, ?_⟩
  simp only [darkEvents, lightEvents, dif_pos hlit, if_pos hlit, Pins.applyAll_cons, applyAll_shiftEvents]
  match k, hk with
  | 1, _ => exact ⟨rfl, rfl⟩
  | k + 2, _ =>
    have hall : latchEvents.take (k + 2) = latchEvents := List.take_of_length_le (Nat.le_add_left 2 k)
    rw [hall]
    exact ⟨rfl, rfl⟩

/-- From the rise of the first latch pulse on, at every point of the trace, the pins show nothing or the cursor's digit
with its pattern (rule R114). -/
theorem shows_after_latch {s : State} {p : Pins} (hdark : p.dsel = 0x00) (m : Nat) :
    Shows s (p.applyAll ((darkEvents s ++ lightEvents s).take m)) := by
  rw [List.take_append, Pins.applyAll_append]
  have hmem (n : Nat) : .lat true ∉ (darkEvents s).take n := fun h =>
    latch_not_mem_darkEvents s (List.mem_of_mem_take h)
  by_cases hm : m ≤ (darkEvents s).length
  · rw [Nat.sub_eq_zero_of_le hm, List.take_zero, Pins.applyAll_nil]
    exact shows_of_dark hdark (hmem m)
  · by_cases hlit : s.cur.val < 8
    · rw [List.take_of_length_le (by omega)]
      exact shows_of_light s p (by omega) hlit
    · rw [lightEvents, if_neg hlit, List.take_nil, Pins.applyAll_nil]
      exact shows_of_dark hdark (hmem m)

/-- At every point of a scan step's trace: before its first latch pulse the outputs are as they were, from it on they
show nothing or the cursor's digit with its pattern (rule R114). -/
theorem scanEvents_take (s : State) (n : Nat) :
    (.lat true ∉ (scanEvents s).take n → (s.pins.applyAll ((scanEvents s).take n)).dsel = s.pins.dsel ∧
      (s.pins.applyAll ((scanEvents s).take n)).pseg = s.pins.pseg) ∧
    (.lat true ∈ (scanEvents s).take n → Shows s (s.pins.applyAll ((scanEvents s).take n))) := by
  rw [scanEvents_eq]
  by_cases hn : n ≤ 24
  · rw [List.take_append_of_le_length (by rw [shiftEvents_length]; exact hn)]
    have hlat : .lat true ∉ (shiftEvents 0x00).take n := fun h =>
      lat_not_mem_shiftEvents 0x00 true (List.mem_of_mem_take h)
    have hseg (v : Byte) : .seg v ∉ (shiftEvents 0x00).take n := fun h =>
      seg_not_mem_shiftEvents 0x00 v (List.mem_of_mem_take h)
    exact ⟨fun _ => ⟨applyAll_dsel _ hlat, applyAll_pseg _ hseg⟩, fun h => absurd h hlat⟩
  · obtain ⟨m, rfl⟩ : ∃ m, n = 24 + (m + 1) := ⟨n - 25, by omega⟩
    rw [← shiftEvents_length 0x00, List.take_length_add_append, List.take_succ_cons]
    refine ⟨fun h => absurd (List.mem_append_right _ List.mem_cons_self) h, fun _ => ?_⟩
    rw [Pins.applyAll_append, Pins.applyAll_cons, applyAll_shiftEvents]
    exact shows_after_latch rfl m

/-- Settles O16: the trace of the scan step at every point. -/
theorem noGhostFromFirstLatchPulse : Obligations.NoGhostFromFirstLatchPulse := by
  intro s btn hturn hscan
  refine ⟨_, step_eq_tick hturn, fun n => ?_⟩
  rw [tick_trace btn hscan]
  exact scanEvents_take s n

/-- What the pins show rests on `DSEL` and `PSEG` alone. -/
theorem Shows.of_eq {s : State} {p q : Pins} (h : Shows s p) (hdsel : q.dsel = p.dsel) (hpseg : q.pseg = p.pseg) :
    Shows s q := by
  rw [Shows, hdsel, hpseg]
  exact h

/-- A scan step leaves its slot on the pins. -/
theorem shows_scanStep (s : State) : Shows s (scanStep s).pins := by
  by_cases h : s.cur.val < 8
  · rw [scanStep_eq_digit s h]
    exact .inr ⟨h, rfl, rfl⟩
  · rw [scanStep_eq_idle s h]
    exact .inl rfl

/-- A tick and the foreground steps after it leave the scan step's pins and the parameters. -/
theorem run_tick_then_foreground {s : State} {btn : BitVec 5} {between more : List Turn} (hscan : s.cfg.hasScan = true)
    (hticks : tickTurns between = 0) (hsched : s.schedule = .tick btn :: (between ++ more)) :
    ∃ u, runSteps (between.length + 1) s = .next u ∧ u.schedule = more ∧ u.cfg = s.cfg ∧
      u.pins = (scanStep s).pins := by
  have htick : step s = .next (tickStep btn (dropTurn s)) := step_eq_tick (nextTurn_of_schedule hsched)
  have hnext : (tickStep btn (dropTurn s)).schedule = between ++ more := by simp [hsched]
  obtain ⟨u, hrun, hmore, hcfg, hpins⟩ := run_counts (fun _ _ u => u.cfg = s.cfg ∧ u.pins = (scanStep s).pins) hnext
    ⟨by simp, tick_pins btn hscan⟩ (fun n _ _ _ hn => by omega) fun _ _ t u _ hturn hu ⟨hcfg, hpins⟩ =>
      have hframe := foregroundStep_frame hturn hu
      ⟨hframe.cfg.trans hcfg, hframe.pins.trans hpins⟩
  exact ⟨u, by rw [runSteps_succ _ htick, hrun], hmore, hcfg, hpins⟩

/-- Settles O55: until its first latch pulse the later scan step leaves what the earlier one shows. -/
theorem noGhostFromOneTickToTheNext : Obligations.NoGhostFromOneTickToTheNext := by
  intro s btn btn' between more hscan hticks hsched
  obtain ⟨u, hrun, hmore, hcfg, hpins⟩ := run_tick_then_foreground hscan hticks hsched
  refine ⟨u, _, hrun, step_eq_tick (nextTurn_of_schedule hmore), fun n => ?_⟩
  rw [tick_trace btn' (hcfg ▸ hscan)]
  obtain ⟨hbefore, hafter⟩ := scanEvents_take u n
  by_cases hlat : .lat true ∈ (scanEvents u).take n
  · exact .inr (hafter hlat)
  · obtain ⟨hdsel, hpseg⟩ := hbefore hlat
    have hshown : Shows s u.pins := hpins ▸ shows_scanStep s
    exact .inl (hshown.of_eq hdsel hpseg)

/-- Settles O21: the first scan step reads `CUR = 0` and the dark digit 0, and writes every pin. -/
theorem firstScanStepEndsPowerUpWindow : Obligations.FirstScanStepEndsPowerUpWindow := by
  intro cfg pu btn hscan
  refine ⟨_, step_eq_tick rfl, ?_, ?_⟩
  · rw [tick_pins btn hscan, scanStep_eq_digit _ (by decide : (0 : Fin 12).val < 8)]
    rw [Pins.mk.injEq]
    have hsdata : (selectByte 0).getLsbD 0 = true := by decide
    exact ⟨segmap_zero cfg, hsdata, rfl, rfl, rfl, rfl⟩
  · rw [tick_cur btn hscan]
    rfl

/-! ### A full refresh cycle -/

/-- Any turns can be cut before the tick that a given number of ticks precede. -/
theorem exists_tick_after {turns : List Turn} {k : Nat} (h : k < tickTurns turns) :
    ∃ before btn after, turns = before ++ .tick btn :: after ∧ tickTurns before = k := by
  induction turns generalizing k with
  | nil => exact absurd h (Nat.not_lt_zero k)
  | cons turn turns ih =>
    cases turn with
    | foreground =>
      obtain ⟨before, btn, after, rfl, hk⟩ := ih h
      exact ⟨.foreground :: before, btn, after, rfl, hk⟩
    | tick btn =>
      cases k with
      | zero => exact ⟨[], btn, turns, rfl, rfl⟩
      | succ k =>
        obtain ⟨before, btn', after, rfl, hk⟩ := ih (Nat.lt_of_succ_lt_succ h)
        exact ⟨.tick btn :: before, btn', after, rfl, congrArg Nat.succ hk⟩

/-- Over the 12 slots from any cursor on each digit's is met once (rule R115). -/
theorem selectOf_once : ∀ (c : Fin 12) (i : Fin 8),
    ((List.finRange 12).filter fun k => selectOf (c + k) = selectByte i.val).length = 1 := by
  decide

/-- Over the 12 slots from any cursor on four are idle (rule R115). -/
theorem selectOf_idle_four : ∀ c : Fin 12,
    ((List.finRange 12).filter fun k => selectOf (c + k) = 0x00).length = 4 := by
  decide

/-- The tick that `k` ticks precede leaves the select byte of slot `CUR + k`. -/
theorem run_to_tick {s : State} {turns more : List Turn} (hscan : s.cfg.hasScan = true)
    (hsched : s.schedule = turns ++ more) {k : Fin 12} (hk : k.val < tickTurns turns) :
    ∃ t, (∃ before btn after, turns = before ++ .tick btn :: after ∧ tickTurns before = k.val ∧
      runSteps (before.length + 1) s = .next t) ∧ t.pins.dsel = selectOf (s.cur + k) := by
  obtain ⟨before, btn, after, rfl, hbefore⟩ := exists_tick_after hk
  rw [List.append_assoc] at hsched
  obtain ⟨t, hrun, hmore, hserv⟩ := run_serviced hsched
  have hcur : t.cur = s.cur + k := by
    apply Fin.ext
    rw [hserv.cur, if_pos hscan, hbefore, Fin.val_add]
  have hstep : step t = .next (tickStep btn (dropTurn t)) := step_eq_tick (nextTurn_of_schedule hmore)
  refine ⟨_, ⟨before, btn, after, rfl, hbefore, runSteps_snoc hrun hstep⟩, ?_⟩
  rw [tick_pins btn (hserv.cfg ▸ hscan), (scanStep_selects t).2, hcur]

/-- Settles O18: the 12 ticks meet the 12 slots from the cursor on, in order. -/
theorem eachDigitOncePerCycle : Obligations.EachDigitOncePerCycle := by
  intro s turns more hscan hsched hticks
  choose f hrun hdsel using fun k : Fin 12 => run_to_tick hscan hsched (k := k) (by rw [hticks]; exact k.isLt)
  refine ⟨f, hrun, hdsel, fun i => ?_, ?_⟩
  · simp only [hdsel]
    exact selectOf_once s.cur i
  · simp only [hdsel]
    exact selectOf_idle_four s.cur

end Sys2Proof.Machine
end

section

namespace Sys2Proof.Machine

open Sys2Proof

/-! ### The debounce step of one input -/

/-- The candidate counter after an agreeing sample, as a number (`93_implementation_defined.md` U3). -/
theorem agreeingCount_val (mode : DebounceMode) (c : Fin 10) :
    (agreeingCount mode c).val = if mode = .returnToZero then 0 else c.val - 1 := by
  cases mode with
  | returnToZero => rfl
  | countDown =>
    revert c
    decide

/-- Below 9 the candidate counter counts. -/
theorem count_succ_val {c : Fin 10} (h : c ≠ 9) : (c + 1).val = c.val + 1 :=
  Fin.val_add_one_of_lt (Fin.lt_last_iff_ne_last.2 h)

/-- With the sampler a tick runs input `i`'s debounce step on its own inverted pin (`43_debouncer.md` rules R151,
R153). -/
theorem tick_db (btn : BitVec 5) {s : State} (hdeb : s.cfg.hasDebounce = true) (i : Fin 5) :
    (tickStep btn (dropTurn s)).db[i] = debounceStep s.cfg.debounceMode (!btn.getLsbD i.val) s.db[i] := by
  rw [tickStep_db, if_pos (by simpa using hdeb)]
  rfl

/-- Settles O23: the three cases of the debounce step, the pin being the inverse of the sample. -/
theorem debounceStepTransitions : Obligations.DebounceStepTransitions := by
  intro s btn hturn hdeb
  refine ⟨_, step_eq_tick hturn, fun i => ?_⟩
  rw [tick_db btn hdeb i]
  generalize s.db[i] = d
  refine ⟨fun hpin => ?_, fun hpin h9 => ?_, fun hpin h9 => ?_⟩ <;> rw [hpin]
  · rw [debounceStep_agree (Bool.not_not d.state)]
    exact ⟨rfl, rfl, agreeingCount_val _ _⟩
  · rw [debounceStep_flip (Bool.not_ne_self d.state) (Fin.ext h9)]
    exact ⟨rfl, rfl, by cases d.state <;> rfl⟩
  · have hne : d.cnt ≠ 9 := Fin.ne_of_val_ne (Nat.ne_of_lt h9)
    rw [debounceStep_count (Bool.not_ne_self d.state) hne]
    exact ⟨rfl, rfl, count_succ_val hne⟩

/-! ### The edge flags over every step -/

/-- A tick sets an edge flag with a rise and only then, and clears none (rule R159 (d)). -/
theorem tick_edge (btn : BitVec 5) (s : State) (i : Fin 5) :
    (tickStep btn s).db[i].edge = (s.db[i].edge || (!s.db[i].state && (tickStep btn s).db[i].state)) := by
  rw [tickStep_db]
  split
  · exact debounceStep_edge _ _ _
  · cases s.db[i].edge <;> cases s.db[i].state <;> rfl

/-- The foreground's step is a `GETEDGE` of input `i`, or the clearing micro-step of one. -/
def ClearsEdge (s : State) (i : Fin 5) : Prop :=
  s.micro = .clearEdge i ∨ ∃ w rest idx, Presents s w rest ∧ decode w = .instr (.getedge idx) ∧ idx.toNat = i.val

/-- A flag that a clear changes is the flag it names. -/
theorem eq_of_clearEdgeFlag_edge_ne {id i : Fin 5} {s : State} (h : (clearEdgeFlag id s).db[i].edge ≠ s.db[i].edge) :
    id = i := by
  by_contra hne
  rw [clearEdgeFlag_edge, if_neg (Ne.symm hne)] at h
  exact h rfl

/-- A clear leaves no flag set that was not. -/
theorem clearEdgeFlag_edge_le {id i : Fin 5} {s : State} (h : s.db[i].edge = false) :
    (clearEdgeFlag id s).db[i].edge = false := by
  rw [clearEdgeFlag_edge, h, ite_self]

/-- A foreground step sets no edge flag, and clears one only as a `GETEDGE` of its input (`10_state.md` rule R28). -/
theorem foreground_edge {s t : State} (hturn : nextTurn s = .foreground) (h : step s = .next t) (i : Fin 5) :
    (s.db[i].edge = false → t.db[i].edge = false) ∧ (t.db[i].edge ≠ s.db[i].edge → ClearsEdge s i) := by
  have hsame {d : Vector DebounceState 5} (hd : d = s.db) :
      (s.db[i].edge = false → d[i].edge = false) ∧ (d[i].edge ≠ s.db[i].edge → ClearsEdge s i) := by
    subst hd
    exact ⟨fun h => h, fun h => absurd rfl h⟩
  cases effect_of_step h with
  | tick btn htick => rw [hturn] at htick; cases htick
  | load k r => exact hsame (by simp)
  | clearEdge id _ hmicro =>
    refine ⟨clearEdgeFlag_edge_le (s := dropTurn s), fun hne => .inl ?_⟩
    rw [hmicro, eq_of_clearEdgeFlag_edge_ne (s := dropTurn s) hne]
  | answer r port => exact hsame rfl
  | instr w rest _ _ hpres hdec heff =>
    cases heff with
    | getedgeClear idx r hid =>
      refine ⟨clearEdgeFlag_edge_le (s := { dropTurn s with port := rest }), fun hne =>
        .inr ⟨w, rest, idx, hpres, hdec, ?_⟩⟩
      exact congrArg Fin.val (eq_of_clearEdgeFlag_edge_ne (s := { dropTurn s with port := rest }) hne)
    | sethex | setraw | load => exact hsame (by simp)
    | answer | setbright | getedgeSplit | xstart | xdata => exact hsame rfl

/-- Settles O27: a tick's flags follow from its rises; the foreground only clears, and moves no level. -/
theorem edgeFlagWriters : Obligations.EdgeFlagWriters := by
  intro s t i h
  cases hturn : nextTurn s with
  | tick btn =>
    rw [step_eq_tick hturn] at h
    cases h
    have hedge := tick_edge btn (dropTurn s) i
    rw [dropTurn_db] at hedge
    rw [hedge]
    refine ⟨fun hlow hset => ?_, fun hlow hhigh => ?_, fun hset hclear => ?_⟩
    · rw [hlow, Bool.false_or, Bool.and_eq_true, Bool.not_eq_true'] at hset
      exact ⟨⟨btn, rfl⟩, hset⟩
    · rw [hlow, hhigh, Bool.not_false, Bool.and_true, Bool.or_true]
    · rw [hset, Bool.true_or] at hclear
      cases hclear
  | foreground =>
    obtain ⟨hkeep, hcause⟩ := foreground_edge hturn h i
    have hlevel : t.db[i].state = s.db[i].state := (foregroundStep_frame hturn h).level i
    refine ⟨fun hlow hset => ?_, fun hlow hhigh => ?_, fun hset hclear => ⟨rfl, hcause ?_⟩⟩
    · rw [hkeep hlow] at hset
      cases hset
    · rw [hlevel, hlow] at hhigh
      cases hhigh
    · rw [hset, hclear]
      exact Bool.false_ne_true

/-! ### Runs of equal samples -/

/-- After `n` samples equal to `target`: the level has settled, or `n` are counted towards it. -/
def Settling (target : Bool) (n : Nat) (d : DebounceState) : Prop := d.state = target ∨ n ≤ d.cnt.val

/-- One more equal sample settles the level or is counted (rule R152). -/
theorem Settling.sample {target : Bool} {n : Nat} {d : DebounceState} (h : Settling target n d) (mode : DebounceMode) :
    Settling target (n + 1) (debounceStep mode target d) := by
  by_cases hagree : target = d.state
  · rw [debounceStep_agree hagree]
    exact .inl hagree.symm
  · by_cases h9 : d.cnt = 9
    · rw [debounceStep_flip hagree h9]
      exact .inl rfl
    · obtain hstate | hcount := h
      · exact absurd hstate.symm hagree
      · rw [debounceStep_count hagree h9]
        exact .inr (by rw [count_succ_val h9]; exact Nat.succ_le_succ hcount)

/-- Ten samples leave no room to count further. -/
theorem Settling.settled {target : Bool} {n : Nat} {d : DebounceState} (h : Settling target n d) (hn : 10 ≤ n) :
    d.state = target := by
  obtain hstate | hcount := h
  · exact hstate
  · have hlt : d.cnt.val < 10 := d.cnt.isLt
    omega

/-- After `n` ticks from `s` that each sample `target` on input `i`. -/
structure SettlingFrom (s : State) (i : Fin 5) (target : Bool) (n : Nat) (t : State) : Prop where
  cfg : t.cfg = s.cfg
  settling : Settling target n t.db[i]

/-- One more tick with the same sample. -/
theorem SettlingFrom.tick {s t : State} {i : Fin 5} {level : Bool} {n : Nat} (h : SettlingFrom s i (!level) n t)
    (hdeb : s.cfg.hasDebounce = true) {btn : BitVec 5} (hpin : btn.getLsbD i.val = level) :
    SettlingFrom s i (!level) (n + 1) (tickStep btn (dropTurn t)) := by
  refine ⟨(tickStep_cfg btn (dropTurn t)).trans h.cfg, ?_⟩
  rw [tick_db btn (h.cfg ▸ hdeb) i, hpin]
  exact h.settling.sample _

/-- A foreground step moves neither the level nor its count. -/
theorem SettlingFrom.foreground {s t u : State} {i : Fin 5} {target : Bool} {n : Nat} (h : SettlingFrom s i target n t)
    (hturn : nextTurn t = .foreground) (hstep : step t = .next u) : SettlingFrom s i target n u := by
  have hframe := foregroundStep_frame hturn hstep
  refine ⟨hframe.cfg.trans h.cfg, ?_⟩
  rw [Settling, hframe.level i, hframe.count i]
  exact h.settling

/-- Settles O24: the equal samples are counted until the level settles, and the foreground moves neither. -/
theorem tenEqualSamplesSettle : Obligations.TenEqualSamplesSettle := by
  intro s turns more i level hdeb hsched hpins hten
  obtain ⟨t, hrun, -, hfrom⟩ :=
    run_counts (fun n _ t => SettlingFrom s i (!level) n t) hsched ⟨rfl, .inr (Nat.zero_le _)⟩
      (fun _ _ _ btn _ hmem h => h.tick hdeb (hpins btn hmem))
      fun _ _ _ _ _ hturn hstep h => h.foreground hturn hstep
  exact ⟨t, hrun, hfrom.settling.settled hten⟩

/-- After `n` differing samples, fewer than 10, from a state `s` with no candidate: they are counted, and neither the
level nor a clear edge flag has moved. -/
structure Pending (s : State) (i : Fin 5) (n : Nat) (t : State) : Prop where
  serviced : Serviced s n t
  level : t.db[i].state = s.db[i].state
  count : t.db[i].cnt.val = n
  edge : s.db[i].edge = false → t.db[i].edge = false

/-- A differing sample before the tenth is counted. -/
theorem Pending.tick {s t : State} {i : Fin 5} {n : Nat} (h : Pending s i n t) (hdeb : s.cfg.hasDebounce = true)
    {btn : BitVec 5} (hpin : btn.getLsbD i.val = s.db[i].state) (hn : n < 9) :
    Pending s i (n + 1) (tickStep btn (dropTurn t)) := by
  obtain ⟨hserv, hlevel, hcount, hedge⟩ := h
  have hne : t.db[i].cnt ≠ 9 := Fin.ne_of_val_ne (by rw [hcount]; exact Nat.ne_of_lt hn)
  have hdiff : (!btn.getLsbD i.val) ≠ t.db[i].state := by
    rw [hpin, hlevel]
    exact Bool.not_ne_self _
  have hdb := tick_db btn (hserv.cfg ▸ hdeb) i
  rw [debounceStep_count hdiff hne] at hdb
  refine ⟨hserv.tick btn, ?_, ?_, ?_⟩ <;> rw [hdb]
  · exact hlevel
  · exact (count_succ_val hne).trans (congrArg Nat.succ hcount)
  · exact hedge

/-- A foreground step leaves the candidate pending. -/
theorem Pending.foreground {s t u : State} {i : Fin 5} {n : Nat} (h : Pending s i n t)
    (hturn : nextTurn t = .foreground) (hstep : step t = .next u) : Pending s i n u := by
  obtain ⟨hserv, hlevel, hcount, hedge⟩ := h
  have hframe := foregroundStep_frame hturn hstep
  refine ⟨hserv.foreground hturn hstep, (hframe.level i).trans hlevel, ?_,
    fun hlow => (foreground_edge hturn hstep i).1 (hedge hlow)⟩
  rw [hframe.count i]
  exact hcount

/-- Differing samples at fewer than 10 ticks, whatever the foreground does between them, are counted and no more. -/
theorem run_pending {s : State} {turns more : List Turn} {i : Fin 5} (hdeb : s.cfg.hasDebounce = true)
    (hsched : s.schedule = turns ++ more) (hzero : s.db[i].cnt.val = 0)
    (hpins : ∀ btn, .tick btn ∈ turns → btn.getLsbD i.val = s.db[i].state) (hfew : tickTurns turns < 10) :
    ∃ t, runSteps turns.length s = .next t ∧ t.schedule = more ∧ Pending s i (tickTurns turns) t :=
  run_counts (fun n _ t => Pending s i n t) hsched ⟨.none s, rfl, hzero, id⟩
    (fun _ _ _ btn hn hmem h => h.tick hdeb (hpins btn hmem) (by omega))
    fun _ _ _ _ _ hturn hstep h => h.foreground hturn hstep

/-- Settles O25: the pulse stays pending, and the agreeing sample after it abandons it. -/
theorem shortPulseIsInvisible : Obligations.ShortPulseIsInvisible := by
  intro s pulse more last i hdeb hmode hsched hzero hpins hfew hlast
  obtain ⟨t, hrun, hmore, hserv, hlevel, hcount, -⟩ :=
    run_pending hdeb hsched (congrArg Fin.val hzero) hpins hfew
  have hstep : step t = .next (tickStep last (dropTurn t)) := step_eq_tick (nextTurn_of_schedule hmore)
  have hagree : (!last.getLsbD i.val) = t.db[i].state := by rw [hlast, hlevel, Bool.not_not]
  refine ⟨⟨t, hrun, hlevel, hcount⟩, ⟨_, runSteps_snoc hrun hstep, ?_⟩⟩
  rw [tick_db last (hserv.cfg ▸ hdeb) i, debounceStep_agree hagree, hserv.cfg, hmode]
  exact ⟨hlevel, rfl⟩

theorem tickTurns_append (ts us : List Turn) : tickTurns (ts ++ us) = tickTurns ts + tickTurns us := by
  induction ts with
  | nil => exact (Nat.zero_add _).symm
  | cons turn ts ih =>
    cases turn with
    | tick btn => simp only [List.cons_append, tickTurns, ih, Nat.add_right_comm]
    | foreground => exact ih

/-- The tenth differing sample of a low input after reset reports it, with its edge. -/
theorem Pending.tenth {s t : State} {i : Fin 5} (h : Pending s i 9 t) (hdeb : s.cfg.hasDebounce = true)
    (hlow : s.db[i].state = false) {last : BitVec 5} (hpin : last.getLsbD i.val = false) :
    (tickStep last (dropTurn t)).db[i] = { state := true, cnt := 0, edge := true } := by
  obtain ⟨hserv, hlevel, hcount, -⟩ := h
  have hdiff : (!last.getLsbD i.val) ≠ t.db[i].state := by
    rw [hpin, hlevel, hlow]
    exact Bool.not_ne_self false
  rw [tick_db last (hserv.cfg ▸ hdeb) i, debounceStep_flip hdiff (Fin.ext hcount), hpin]
  rfl

/-- The state after reset, with the environment's turns and the foreground's words. -/
def fromReset (cfg : Config) (pu : PowerUp) (turns : List Turn) (port : List PortWord) : State :=
  { State.resetWith cfg pu with schedule := turns, port := port }

theorem fromReset_db (cfg : Config) (pu : PowerUp) (turns : List Turn) (port : List PortWord) (i : Fin 5) :
    (fromReset cfg pu turns port).db[i] = { state := false, cnt := 0, edge := false } :=
  Vector.getElem_replicate i.isLt

/-- Settles O26: the samples of a held button are pending until the tenth. -/
theorem heldButtonReportsAtTenthTick : Obligations.HeldButtonReportsAtTenthTick := by
  intro cfg pu port turns more i hdeb hpins
  have hdb := fromReset_db cfg pu (turns ++ more) port i
  have hlow : (fromReset cfg pu (turns ++ more) port).db[i].state = false := by rw [hdb]
  have hzero : (fromReset cfg pu (turns ++ more) port).db[i].cnt.val = 0 := by rw [hdb]; rfl
  refine ⟨fun hfew => ?_, fun before last hturns hten => ?_⟩
  · obtain ⟨t, hrun, -, -, hlevel, -, hedge⟩ :=
      run_pending (s := fromReset cfg pu (turns ++ more) port) hdeb rfl hzero
        (fun btn hmem => (hpins btn hmem).trans hlow.symm) hfew
    exact ⟨t, hrun, hlevel.trans hlow, hedge (by rw [hdb])⟩
  · subst hturns
    have hnine : tickTurns before = 9 := by
      rw [tickTurns_append] at hten
      exact Nat.succ_injective hten
    obtain ⟨t, hrun, hmore, hpend⟩ :=
      run_pending (s := fromReset cfg pu (before ++ [.tick last] ++ more) port) hdeb (List.append_assoc _ _ _) hzero
        (fun btn hmem => (hpins btn (List.mem_append_left _ hmem)).trans hlow.symm) (by omega)
    rw [hnine] at hpend
    have hstep : step t = .next (tickStep last (dropTurn t)) := step_eq_tick (nextTurn_of_schedule hmore)
    have hrise := hpend.tenth hdeb hlow (hpins last (by simp))
    have hticks := (hpend.serviced.tick last).ticks
    refine ⟨tickStep last (dropTurn t), ?_, by rw [hrise], by rw [hrise], hticks⟩
    rw [List.length_append]
    exact runSteps_snoc hrun hstep

end Sys2Proof.Machine
end

section

namespace Sys2Proof.Machine

open Sys2Proof

/-! ### The debouncer's commands in sequence -/

/-- Clearing a flag that is clear changes no debounce state. -/
theorem clearEdgeFlag_of_clear {id : Fin 5} {s : State} (h : s.db[id].edge = false) :
    SameDebouncer s (clearEdgeFlag id s) := by
  intro i
  rw [clearEdgeFlag_get]
  split
  · next hi =>
    rw [hi, ← h]
  · rfl

/-- Settles O30: the first `GETEDGE` answers the set flag and clears it, so the second finds it clear. -/
theorem secondGetedgeAnswersZero : Obligations.SecondGetedgeAnswersZero := by
  intro idx s t u hid hdeb hatomic hset hfirst hsecond
  rw [exec_getedge_of_atomic hdeb hatomic hid, hset] at hfirst
  cases hfirst
  rw [exec_getedge_of_atomic (s := respond (bitResponse true) (clearEdgeFlag ⟨idx.toNat, hid⟩ s)) hdeb hatomic hid]
    at hsecond
  cases hsecond
  have hclear : (clearEdgeFlag ⟨idx.toNat, hid⟩ s).db[(⟨idx.toNat, hid⟩ : Fin 5)].edge = false := by
    rw [clearEdgeFlag_edge, if_pos rfl]
  refine ⟨rfl, ?_, clearEdgeFlag_of_clear hclear⟩
  exact congrArg bitResponse hclear

/-- Settles O31: the split `GETEDGE` only answers and leaves its clear in progress; the clear reaches its own flag
alone. -/
theorem getedgeSplitsInTwoMicroSteps : Obligations.GetedgeSplitsInTwoMicroSteps := by
  refine ⟨fun idx s hid hdeb hsplit => ?_, fun idx s hid hdeb _ => ?_, fun s id hturn hmicro => ?_⟩
  · exact ⟨_, exec_getedge_of_split hdeb hsplit hid, bitResponse_eq_word _, rfl, rfl,
      respond_unchanged _ { s with micro := .clearEdge ⟨idx.toNat, hid⟩ }⟩
  · exact ⟨_, exec_getedge_of_invalid hdeb (Nat.not_lt_of_le hid), rfl, rfl, respond_unchanged _ s⟩
  · refine ⟨_, step_eq_clearEdge hturn hmicro, rfl, rfl, rfl, fun i => ?_, fun _ => rfl, ⟨rfl, rfl⟩, rfl,
      ⟨rfl, rfl, rfl⟩, ⟨rfl, rfl, rfl⟩, fun _ => rfl, ⟨rfl, rfl, rfl⟩⟩
    exact ⟨clearEdgeFlag_level id i _, clearEdgeFlag_count id i _, clearEdgeFlag_edge id i _⟩

/-- Ticks leave the foreground where it is: its micro-step and its program (`60_exceptions.md` rule R188). -/
theorem run_ticks_only {s : State} {gap more : List Turn} (hgap : foregroundTurns gap = 0)
    (hsched : s.schedule = gap ++ more) :
    ∃ t, runSteps gap.length s = .next t ∧ t.schedule = more ∧ t.micro = s.micro ∧ t.port = s.port :=
  run_counts (fun _ _ t => t.micro = s.micro ∧ t.port = s.port) hsched ⟨rfl, rfl⟩
    (fun _ _ _ _ _ _ ⟨hmicro, hport⟩ => ⟨by simpa using hmicro, by simpa using hport⟩)
    fun _ f _ _ hf => by omega

/-- Settles O32: the clear is still in progress after the gap, and clears the flag whatever it is by then. -/
theorem edgeInTheGapIsLost : Obligations.EdgeInTheGapIsLost := by
  intro s gap more id hmicro hgap hsched
  obtain ⟨t, hrun, hmore, htmicro, htport⟩ := run_ticks_only hgap hsched
  have hstep := step_eq_clearEdge (nextTurn_of_schedule hmore) (htmicro.trans hmicro)
  refine ⟨_, runSteps_snoc hrun hstep, ?_, rfl, htport⟩
  exact (clearEdgeFlag_edge id id (dropTurn t)).trans (if_pos rfl)

/-! ### The window of a tick goal -/

/-- The difference of two counts, as a number. -/
theorem toNat_ofNat_sub (k : Nat) (d : Count) :
    ((BitVec.ofNat 32 k - d).toNat : Int) = ((k : Int) - (d.toNat : Int)) % 2 ^ 32 := by
  have hd : d.toNat < 2 ^ 32 := d.isLt
  rw [BitVec.toNat_sub, BitVec.toNat_ofNat]
  omega

/-- A goal taken with `d` is reached `k` ticks later exactly when the difference lies in the lower half of the counter
(`44_tick_helpers.md` rule R173). -/
theorem goalReached_later_iff (ticks d : Count) (k : Nat) :
    goalReached (ticks + BitVec.ofNat 32 k) (ticks + d) = true ↔ ((k : Int) - (d.toNat : Int)) % 2 ^ 32 < 2 ^ 31 := by
  have hdiff : ticks + BitVec.ofNat 32 k - (ticks + d) = BitVec.ofNat 32 k - d := by bv_omega
  rw [goalReached_iff_toInt_nonneg, hdiff, ← toNat_ofNat_sub, BitVec.toInt_eq_toNat_cond]
  have hlt := (BitVec.ofNat 32 k - d).isLt
  split <;> omega

/-- Settles O37: the window, and its two sides for a delta in the lower half of the counter. -/
theorem goalWindowIsHalfTheCounter : Obligations.GoalWindowIsHalfTheCounter := by
  intro s t u delta g k hgoal hresp hticks
  rw [exec_tickgoal] at hgoal
  cases hgoal
  cases hresp
  refine ⟨_, exec_tickreached _ u, ?_, fun hd hk => ?_, fun hd hlo hhi => ?_⟩ <;>
    simp only [respond_resp, hticks, goalReached_later_iff]
  · rw [if_neg (by omega)]
  · rw [if_pos (by omega)]

end Sys2Proof.Machine
end

section

namespace Sys2Proof.Machine

open Sys2Proof

/-! ### The inert brightness hook -/

/-- With the scan engine `SETBRIGHT` writes `BRIGHT` and answers 0 (`41_scan_engine.md` rule R112). -/
theorem exec_setbright_of_hasScan (idx : Byte) {s : State} (h : s.cfg.hasScan = true) :
    exec (.setbright idx) s = .next (respond (.word 0) { s with bright := idx }) := if_pos h

/-- Settles O12: one write and a response. -/
theorem setbrightStoresVerbatim : Obligations.SetbrightStoresVerbatim := by
  intro idx s hscan
  exact ⟨_, exec_setbright_of_hasScan idx hscan, rfl, rfl, rfl, fun _ => rfl, ⟨rfl, rfl⟩, fun _ => rfl,
    ⟨rfl, rfl, rfl⟩, ⟨rfl, rfl, rfl⟩, fun _ => rfl, ⟨rfl, rfl, rfl⟩, rfl⟩

/-- The same state with another `BRIGHT`. -/
def withBright (v : Byte) (s : State) : State := { s with bright := v }

theorem setDigit_withBright (v : Byte) (i : Nat) (b : Byte) (s : State) :
    setDigit i b (withBright v s) = withBright v (setDigit i b s) := by
  unfold setDigit
  split <;> rfl

theorem loadStep_withBright (v : Byte) (k : Fin 9) (r : Byte) (s : State) :
    loadStep k r (withBright v s) = withBright v (loadStep k r s) := by
  by_cases hk : k.val < 8
  · rw [loadStep_digit hk, loadStep_digit hk, setDigit_withBright]
    rfl
  · rw [loadStep_last hk, loadStep_last hk]
    rfl

theorem scanIfPresent_withBright (v : Byte) (s : State) :
    scanIfPresent (withBright v s) = withBright v (scanIfPresent s) := by
  by_cases hscan : s.cfg.hasScan = true
  · rw [scanIfPresent, scanIfPresent, if_pos hscan, if_pos (show (withBright v s).cfg.hasScan = true from hscan)]
    by_cases hlit : s.cur.val < 8
    · rw [scanStep_eq_digit s hlit, scanStep_eq_digit (withBright v s) hlit]
      rfl
    · rw [scanStep_eq_idle s hlit, scanStep_eq_idle (withBright v s) hlit]
      rfl
  · rw [scanIfPresent, scanIfPresent, if_neg hscan, if_neg (show ¬ (withBright v s).cfg.hasScan = true from hscan)]

theorem sampleIfPresent_withBright (v : Byte) (s : State) :
    sampleIfPresent (withBright v s) = withBright v (sampleIfPresent s) := by
  by_cases hdeb : s.cfg.hasDebounce = true
  · rw [sampleIfPresent, sampleIfPresent, if_pos hdeb,
      if_pos (show (withBright v s).cfg.hasDebounce = true from hdeb)]
    rfl
  · rw [sampleIfPresent, sampleIfPresent, if_neg hdeb,
      if_neg (show ¬ (withBright v s).cfg.hasDebounce = true from hdeb)]

/-- A tick neither reads nor writes `BRIGHT`. -/
theorem tickStep_withBright (v : Byte) (btn : BitVec 5) (s : State) :
    tickStep btn (withBright v s) = withBright v (tickStep btn s) := by
  have htake : takeTick btn (withBright v s) = withBright v (takeTick btn s) := rfl
  simp only [tickStep, returnFromTick_eq, htake, scanIfPresent_withBright, sampleIfPresent_withBright]

/-- The answers `o` and `o'` are next states that differ in `BRIGHT` at most. -/
def AlikeButBright (o o' : Host.Outcome State Fault Refusal) : Prop :=
  ∃ t t', o = .next t ∧ o' = .next t' ∧ withBright t.bright t' = t

theorem alikeButBright_withBright (v : Byte) (t : State) : AlikeButBright (.next t) (.next (withBright v t)) :=
  ⟨t, _, rfl, rfl, rfl⟩

theorem AlikeButBright.ite {c : Prop} [Decidable c] {o₁ o₂ o₁' o₂' : Host.Outcome State Fault Refusal}
    (h₁ : AlikeButBright o₁ o₁') (h₂ : AlikeButBright o₂ o₂') :
    AlikeButBright (if c then o₁ else o₂) (if c then o₁' else o₂') := by
  split
  · exact h₁
  · exact h₂

/-- No command and no event reads `BRIGHT`: each tests the same conditions with the same results. -/
theorem exec_withBright (v : Byte) (i : Instr) (s : State) : AlikeButBright (exec i s) (exec i (withBright v s)) := by
  have halike (t : State) : AlikeButBright (.next t) (.next (withBright v t)) := alikeButBright_withBright v t
  have hdigit (k : Nat) (b : Byte) : AlikeButBright (.next (respond (.word 0) (setDigit k b s)))
      (.next (respond (.word 0) (setDigit k b (withBright v s)))) := by
    rw [setDigit_withBright]
    exact halike _
  cases i with
  | nop | tickgoal | tickreached | xstart | xget => exact halike _
  | sethex idx val => exact .ite (hdigit idx.toNat (hexpat s.cfg val)) (halike _)
  | setraw idx val => exact .ite (hdigit idx.toNat val) (halike _)
  | setbright idx => exact .ite ⟨_, _, rfl, rfl, rfl⟩ (halike _)
  | getlevel | rdbtn | xdata => exact .ite (halike _) (halike _)
  | getedge idx =>
    refine .ite ?_ (halike _)
    by_cases hid : idx.toNat < 5
    · rw [dif_pos hid, dif_pos hid]
      exact .ite (halike _) (halike _)
    · rw [dif_neg hid, dif_neg hid]
      exact halike _
  | load =>
    refine .ite (.ite (halike _) ?_) (halike _)
    rw [loadStep_withBright]
    exact halike _

/-- Settles O13: each kind of step with another `BRIGHT` is alike. -/
theorem brightIsInert : Obligations.BrightIsInert := by
  intro s t v h
  have halike : AlikeButBright (step s) (step (withBright v s)) := by
    obtain ⟨btn, hturn, hs⟩ | ⟨k, r, hturn, hmicro, hs⟩ | ⟨id, hturn, hmicro, hs⟩ | ⟨hturn, hmicro, hport, hs⟩ |
      ⟨w, rest, why, hpres, hdec, hs⟩ | ⟨w, rest, i, hpres, hdec, hs⟩ := step_cases s <;> rw [hs]
    · rw [step_eq_tick (s := withBright v s) hturn]
      exact tickStep_withBright v btn (dropTurn s) ▸ alikeButBright_withBright v _
    · rw [step_eq_load (s := withBright v s) hturn hmicro]
      exact loadStep_withBright v k r (dropTurn s) ▸ alikeButBright_withBright v _
    · rw [step_eq_clearEdge (s := withBright v s) hturn hmicro]
      exact alikeButBright_withBright v _
    · rw [step_eq_idle (s := withBright v s) hturn hmicro hport]
      exact alikeButBright_withBright v _
    · rw [step_eq_accept (s := withBright v s) hpres, acceptWord, hdec, illegalWord_eq, illegalWord_eq]
      exact alikeButBright_withBright v _
    · rw [step_eq_exec (s := withBright v s) hpres hdec]
      exact exec_withBright v i { dropTurn s with port := rest }
  obtain ⟨u, u', hu, hu', hbright⟩ := halike
  rw [h] at hu
  cases hu
  exact ⟨u', hu', hbright⟩

end Sys2Proof.Machine
end

section

namespace Sys2Proof.Machine

open Sys2Proof

/-! ### The display load -/

/-- A nibble's pattern is its table entry, never with the decimal point (`42_scratchpad_bridge.md` rule R135). -/
theorem hexpat_nibble (cfg : Config) (n : BitVec 4) : hexpat cfg (n.setWidth 8) = cfg.hextab[n.toNat]'n.isLt := by
  have hlow : (n.setWidth 8).extractLsb' 0 4 = n := by
    rw [BitVec.extractLsb'_setWidth_of_le (by omega), BitVec.extractLsb'_eq_self]
  have hpoint : (n.setWidth 8).getLsbD 4 = false := by
    rw [BitVec.getLsbD_setWidth, BitVec.getLsbD_of_ge n 4 (Nat.le_refl 4), Bool.and_false]
  rw [hexpat, hlow, hpoint, if_neg Bool.false_ne_true, hexEntry]
  exact BitVec.or_zero

/-- The pattern a load writes, in the words of rule R135. -/
theorem loadPattern_eq_loadedPattern (cfg : Config) (sb : Memory) (k : Nat) :
    loadPattern cfg sb k = loadedPattern cfg sb k := by
  unfold loadPattern loadedPattern
  cases cfg.loadMode with
  | raw => rfl
  | packedHex =>
    simp only [hexpat_nibble, BitVec.extractLsb'_toNat, Nat.shiftRight_eq_div_pow, Nat.pow_zero, Nat.div_one]

/-- The digits after a micro-step of `LOAD`: its own digit, if it has one, and every other as before. -/
theorem loadStep_dig (k : Fin 9) (r : Byte) (s : State) (j : Fin 8) :
    (loadStep k r s).dig[j] = if j.val = k.val then loadedPattern s.cfg s.sb k.val else s.dig[j] := by
  rw [← loadPattern_eq_loadedPattern]
  by_cases hk : k.val < 8
  · rw [loadStep_digit hk]
    exact setDigit_get k.val _ s j
  · have hne : j.val ≠ k.val := by omega
    rw [loadStep_last hk, if_neg hne]
    rfl

/-- What a micro-step of `LOAD` before the last leaves besides its digit. -/
theorem loadStep_digit_rest {k : Fin 9} (hk : k.val < 8) (r : Byte) (s : State) :
    (loadStep k r s).micro = .load (k + 1) r ∧ (loadStep k r s).ready = s.ready ∧ (loadStep k r s).resp = .none := by
  rw [loadStep_digit hk]
  exact ⟨rfl, setDigit_ready _ _ s, rfl⟩

/-- What the last micro-step of `LOAD` leaves. -/
theorem loadStep_last_rest {k : Fin 9} (hk : k.val = 8) (r : Byte) (s : State) :
    (loadStep k r s).micro = .idle ∧ (loadStep k r s).ready = 0 ∧
      (loadStep k r s).resp = .word (BitVec.ofNat 32 r.toNat) := by
  rw [loadStep_last (Nat.not_lt_of_le (Nat.le_of_eq hk.symm))]
  exact ⟨rfl, rfl, congrArg Response.word (BitVec.ofNat_toNat 32 r).symm⟩

/-- Settles O43: the micro-step in progress is the step, with its digit, its rest and the common frame. -/
theorem loadMicroStepsInOrder : Obligations.LoadMicroStepsInOrder := by
  intro s k r hturn hmicro
  obtain ⟨hcfg, hcur, hpins, hbtn, hticks, htcmp, hsched, hport, htrace, -, -⟩ := loadStep_frame k r (dropTurn s)
  refine ⟨_, step_eq_load hturn hmicro, htrace, loadStep_dig k r (dropTurn s),
    fun hk => loadStep_digit_rest hk r (dropTurn s), fun hk => loadStep_last_rest hk r (dropTurn s),
    ⟨hcur, hpins⟩, by simp, fun i => by simp, ⟨hticks, htcmp, hbtn⟩, by simp, by simp, fun a => by simp,
    ⟨hcfg, hsched, hport⟩⟩

/-- Settles O42: a `LOAD` that finds nothing ready only answers; one that does takes micro-step 0. -/
theorem loadTakesItsFirstMicroStep : Obligations.LoadTakesItsFirstMicroStep := by
  refine ⟨fun s hscan hready => ⟨_, exec_load_of_empty hscan hready, rfl, rfl, respond_unchanged _ s⟩,
    fun s hscan hready => ?_⟩
  obtain ⟨hcfg, hcur, hpins, hbtn, hticks, htcmp, hsched, hport, htrace, -, -⟩ := loadStep_frame 0 s.ready s
  obtain ⟨hmicro, hkeep, hresp⟩ := loadStep_digit_rest (k := 0) (by decide) s.ready s
  exact ⟨_, exec_load_of_ready hscan hready, hresp, htrace, hmicro, loadStep_dig 0 s.ready s,
    ⟨hcur, hpins⟩, by simp, fun i => by simp, ⟨hticks, htcmp, hbtn⟩, ⟨hkeep, by simp, by simp⟩, fun a => by simp,
    ⟨hcfg, hsched, hport⟩⟩

/-- What a load started from `s` leaves alone, among the fields its micro-steps might touch: the parameters, `BRIGHT` and
the bridge but for `READY`. -/
structure LoadFrame (s t : State) : Prop where
  cfg : t.cfg = s.cfg
  bright : t.bright = s.bright
  sb : t.sb = s.sb
  xmax : t.xmax = s.xmax
  xcnt : t.xcnt = s.xcnt

theorem LoadFrame.tick {s t : State} (h : LoadFrame s t) (btn : BitVec 5) :
    LoadFrame s (tickStep btn (dropTurn t)) := by
  obtain ⟨hcfg, hbright, hsb, hxmax, hxcnt⟩ := h
  exact ⟨by simpa, by simpa, by simpa, by simpa, by simpa⟩

theorem LoadFrame.loadStep {s t : State} (h : LoadFrame s t) (k : Fin 9) (r : Byte) :
    LoadFrame s (loadStep k r t) := by
  obtain ⟨hcfg, hbright, hsb, hxmax, hxcnt⟩ := h
  exact ⟨by simpa, by simpa, by simpa, by simpa, by simpa⟩

/-- After `f` micro-steps, at most 8, of a load presented in `s` with the words `rest` to follow: the digits below `f`
hold their patterns, and micro-step `f` is next. -/
structure Loading (s : State) (rest : List PortWord) (f : Nat) (t : State) : Prop where
  frame : LoadFrame s t
  ready : t.ready = s.ready
  next : (f = 0 ∧ t.micro = .idle ∧ t.port = s.port) ∨
    ∃ k : Fin 9, k.val = f ∧ t.micro = .load k s.ready ∧ t.port = rest
  digits : ∀ j : Fin 8, j.val < f → t.dig[j] = loadedPattern s.cfg s.sb j.val

/-- A tick between two micro-steps moves no part of the load. -/
theorem Loading.tick {s t : State} {rest : List PortWord} {f : Nat} (h : Loading s rest f t) (btn : BitVec 5) :
    Loading s rest f (tickStep btn (dropTurn t)) := by
  obtain ⟨hframe, hready, hnext, hdigits⟩ := h
  exact ⟨hframe.tick btn, by simpa using hready, by simpa using hnext, by simpa using hdigits⟩

/-- A micro-step before the last loads its own digit. -/
theorem Loading.loadStep {s t : State} {rest : List PortWord} {k : Fin 9} (hk : k.val < 8) (hframe : LoadFrame s t)
    (hready : t.ready = s.ready) (hport : t.port = rest)
    (hdigits : ∀ j : Fin 8, j.val < k.val → t.dig[j] = loadedPattern s.cfg s.sb j.val) :
    Loading s rest (k.val + 1) (loadStep k s.ready t) := by
  obtain ⟨hmicro, hkeep, -⟩ := loadStep_digit_rest hk s.ready t
  refine ⟨hframe.loadStep k _, hkeep.trans hready,
    .inr ⟨k + 1, Fin.val_add_one_of_lt (Fin.lt_def.2 hk), hmicro, (loadStep_frame k _ t).port.trans hport⟩,
    fun j hj => ?_⟩
  rw [loadStep_dig, hframe.cfg, hframe.sb]
  split
  · next heq => rw [heq]
  · next hne => exact hdigits j (by omega)

/-- The foreground's next step is the load's next micro-step. -/
theorem Loading.foreground {s t u : State} {w : PortWord} {rest : List PortWord} {f : Nat} (h : Loading s rest f t)
    (hport : s.port = w :: rest) (hdec : decode w = .instr .load) (hscan : s.cfg.hasScan = true)
    (hready : s.ready ≠ 0) (hf : f < 8) (hturn : nextTurn t = .foreground) (hstep : step t = .next u) :
    Loading s rest (f + 1) u := by
  obtain ⟨hframe, hkept, ⟨rfl, hmicro, hport'⟩ | ⟨k, rfl, hmicro, hport'⟩, hdigits⟩ := h
  · have hexec := step_eq_exec ⟨hturn, hmicro, hport'.trans hport⟩ hdec
    have hload := exec_load_of_ready (s := { dropTurn t with port := rest }) (hframe.cfg ▸ hscan) (hkept ▸ hready)
    cases hstep.symm.trans (hexec.trans hload)
    have hframe' : LoadFrame s { dropTurn t with port := rest } :=
      ⟨hframe.cfg, hframe.bright, hframe.sb, hframe.xmax, hframe.xcnt⟩
    exact hkept ▸ Loading.loadStep (k := 0) (by decide) hframe' hkept rfl hdigits
  · rw [step_eq_load hturn hmicro] at hstep
    cases hstep
    have hframe' : LoadFrame s (dropTurn t) := ⟨hframe.cfg, hframe.bright, hframe.sb, hframe.xmax, hframe.xcnt⟩
    exact Loading.loadStep hf hframe' hkept hport' hdigits

/-- Settles O44: eight turns of the foreground load the eight digits, and the ninth clears `READY` and answers. -/
theorem loadIsTheSameUnderEveryInterleaving : Obligations.LoadIsTheSameUnderEveryInterleaving := by
  intro s w rest turns more hmicro hport hdec hscan hready hsched height
  obtain ⟨t, hrun, hmore, hload⟩ := run_counts (fun _ f t => Loading s rest f t) hsched
    ⟨⟨rfl, rfl, rfl, rfl, rfl⟩, rfl, .inl ⟨rfl, hmicro, rfl⟩, fun j hj => absurd hj (Nat.not_lt_zero _)⟩
    (fun _ _ _ btn _ _ h => h.tick btn)
    fun _ f _ _ hf hturn hstep h => h.foreground hport hdec hscan hready (by omega) hturn hstep
  rw [height] at hload
  obtain ⟨hframe, -, ⟨habs, -⟩ | ⟨k, hk, htmicro, htport⟩, hdigits⟩ := hload
  · cases habs
  have hstep := step_eq_load (nextTurn_of_schedule hmore) htmicro
  obtain ⟨hidle, hclear, hresp⟩ := loadStep_last_rest hk s.ready (dropTurn t)
  have hlast := loadStep_frame k s.ready (dropTurn t)
  refine ⟨_, runSteps_snoc hrun hstep, fun j => ?_, hclear, hresp, hidle, hlast.port.trans htport, ?_, ?_, ?_, ?_, ?_,
    fun a => ?_⟩
  · have hne : j.val ≠ k.val := by omega
    rw [loadStep_dig, if_neg hne]
    exact hdigits j j.isLt
  · rw [hlast.schedule, dropTurn_schedule, hmore, List.tail_cons]
  · simpa using hframe.cfg
  · simpa using hframe.bright
  · simpa using hframe.xmax
  · simpa using hframe.xcnt
  · rw [loadStep_sb, dropTurn_sb, hframe.sb]

end Sys2Proof.Machine
end

section

namespace Sys2Proof.Machine

open Sys2Proof

/-! ### Who writes the bridge and the digits -/

/-- The bridge's four fields are unchanged. -/
structure BridgeKept (s t : State) : Prop where
  sb : t.sb = s.sb
  xmax : t.xmax = s.xmax
  xcnt : t.xcnt = s.xcnt
  ready : t.ready = s.ready

/-- A micro-step of `LOAD` leaves the bridge's fields, or is the last and clears `READY` alone. -/
theorem loadStep_bridge (k : Fin 9) (r : Byte) (s : State) :
    (k.val ≠ 8 → BridgeKept s (loadStep k r s)) ∧ (k.val = 8 → (loadStep k r s).ready = 0) := by
  refine ⟨fun hk => ⟨by simp, by simp, by simp, ?_⟩, fun hk => (loadStep_last_rest hk r s).2.1⟩
  exact (loadStep_digit_rest (by omega) r s).2.1

/-- After a chunk `READY` is `XMAX` or what it was (`42_scratchpad_bridge.md` rule R132). -/
theorem readyAfterChunk_eq_or (off n : Nat) (xmax ready : Byte) :
    readyAfterChunk off n xmax ready = xmax ∨ readyAfterChunk off n xmax ready = ready := by
  unfold readyAfterChunk
  split
  · exact .inl rfl
  · exact .inr rfl

/-- A step that keeps the bridge's fields gives none of its writers to name. -/
theorem BridgeKept.no_writer {s t : State} (h : BridgeKept s t) {P Q R T : Prop} :
    (t.sb ≠ s.sb → P) ∧ (t.xmax ≠ s.xmax → Q) ∧ (t.xcnt ≠ s.xcnt → R) ∧ (t.ready ≠ s.ready → T) :=
  ⟨fun hne => absurd h.sb hne, fun hne => absurd h.xmax hne, fun hne => absurd h.xcnt hne,
    fun hne => absurd h.ready hne⟩

/-- Settles O47: the effects of a step that write a field of the bridge, the rest keeping all four. -/
theorem bridgeFieldWriters : Obligations.BridgeFieldWriters := by
  intro s t h
  cases effect_of_step h with
  | tick btn => exact BridgeKept.no_writer ⟨by simp, by simp, by simp, by simp⟩
  | load k r hturn hmicro =>
    obtain ⟨hkeep, hclear⟩ := loadStep_bridge k r (dropTurn s)
    by_cases hk : k.val = 8
    · obtain rfl : k = 8 := Fin.ext hk
      exact ⟨fun hne => absurd (by simp) hne, fun hne => absurd (by simp) hne, fun hne => absurd (by simp) hne,
        fun _ => .inr ⟨hclear hk, hturn, r, hmicro⟩⟩
    · obtain ⟨hsb, hxmax, hxcnt, hready⟩ := hkeep hk
      exact BridgeKept.no_writer ⟨hsb, hxmax, hxcnt, hready⟩
  | clearEdge => exact BridgeKept.no_writer ⟨rfl, rfl, rfl, rfl⟩
  | answer => exact BridgeKept.no_writer ⟨rfl, rfl, rfl, rfl⟩
  | instr w rest _ _ hpres hdec heff =>
    cases heff with
    | xdata bytes =>
      refine ⟨fun _ => ⟨w, rest, bytes, hpres, hdec⟩, fun hne => absurd rfl hne,
        fun _ => ⟨w, rest, hpres, .inr ⟨bytes, hdec⟩⟩, fun hne => .inl ⟨?_, w, rest, bytes, hpres, hdec⟩⟩
      exact (readyAfterChunk_eq_or _ _ _ _).resolve_right hne
    | xstart dir len =>
      exact ⟨fun hne => absurd rfl hne, fun _ => ⟨w, rest, dir, len, hpres, hdec⟩,
        fun _ => ⟨w, rest, hpres, .inl ⟨dir, len, hdec⟩⟩, fun hne => absurd rfl hne⟩
    | load =>
      obtain ⟨hsb, hxmax, hxcnt, hready⟩ := (loadStep_bridge 0 s.ready { dropTurn s with port := rest }).1 (by decide)
      exact BridgeKept.no_writer ⟨hsb, hxmax, hxcnt, hready⟩
    | sethex | setraw => exact BridgeKept.no_writer ⟨by simp, by simp, by simp, by simp⟩
    | answer | setbright | getedgeClear | getedgeSplit => exact BridgeKept.no_writer ⟨rfl, rfl, rfl, rfl⟩

/-- A digit that a write changes is the one its index names. -/
theorem eq_of_setDigit_ne {i : Nat} {v : Byte} {s : State} {k : Fin 8} (h : (setDigit i v s).dig[k] ≠ s.dig[k]) :
    k.val = i := by
  by_contra hne
  rw [setDigit_get, if_neg hne] at h
  exact h rfl

/-- A digit that a micro-step of `LOAD` changes is its own. -/
theorem eq_of_loadStep_dig_ne {k : Fin 9} {r : Byte} {s : State} {j : Fin 8}
    (h : (loadStep k r s).dig[j] ≠ s.dig[j]) : j.val = k.val := by
  by_contra hne
  rw [loadStep_dig, if_neg hne] at h
  exact h rfl

/-- Settles O48: the effects of a step that write a digit, each its own. -/
theorem digitWriters : Obligations.DigitWriters := by
  intro s t k h hne
  cases effect_of_step h with
  | tick btn => exact absurd (by simp) hne
  | load m r hturn hmicro =>
    have hk : k.castSucc = m := Fin.ext (eq_of_loadStep_dig_ne (s := dropTurn s) hne)
    exact ⟨hturn, .inl ⟨r, hk ▸ hmicro⟩⟩
  | clearEdge => exact absurd rfl hne
  | answer => exact absurd rfl hne
  | instr w rest _ _ hpres hdec heff =>
    refine ⟨hpres.1, .inr ⟨w, rest, hpres, ?_⟩⟩
    cases heff with
    | sethex idx val =>
      exact .inl ⟨idx, val, hdec, (eq_of_setDigit_ne (s := { dropTurn s with port := rest }) hne).symm⟩
    | setraw idx val =>
      exact .inr (.inl ⟨idx, val, hdec, (eq_of_setDigit_ne (s := { dropTurn s with port := rest }) hne).symm⟩)
    | load => exact .inr (.inr ⟨hdec, eq_of_loadStep_dig_ne (s := { dropTurn s with port := rest }) hne⟩)
    | answer | setbright | getedgeClear | getedgeSplit | xstart | xdata => exact absurd rfl hne

/-! ### Repeated setters -/

/-- Writing one digit twice with the same byte is writing it once. -/
theorem setDigit_twice (i : Nat) (v : Byte) (r : Response) (s : State) :
    respond r (setDigit i v (respond r (setDigit i v s))) = respond r (setDigit i v s) := by
  by_cases hi : i < 8
  · simp only [setDigit, dif_pos hi, respond, Vector.set_set]
  · simp only [setDigit, dif_neg hi, respond]

/-- Settles O50: what a setter writes does not depend on what it wrote, and an illegal command stays illegal. -/
theorem settersAreIdempotent : Obligations.SettersAreIdempotent := by
  intro i s t hi h
  by_cases habs : FamilyAbsent s.cfg i
  · rw [exec_familyAbsent habs] at h
    cases h
    exact exec_familyAbsent habs
  have hscan := hasScan_of_not_familyAbsent habs
  obtain ⟨idx, val, rfl⟩ | ⟨idx, val, rfl⟩ | ⟨idx, rfl⟩ | ⟨dir, len, rfl⟩ := hi
  · have hs := hscan trivial
    cases (exec_sethex_of_hasScan idx val hs).symm.trans h
    rw [exec_sethex_of_hasScan idx val (by simpa using hs), respond_cfg, setDigit_cfg, setDigit_twice]
  · have hs := hscan trivial
    cases (exec_setraw_of_hasScan idx val hs).symm.trans h
    rw [exec_setraw_of_hasScan idx val (by simpa using hs), setDigit_twice]
  · have hs := hscan trivial
    cases (exec_setbright_of_hasScan idx hs).symm.trans h
    exact exec_setbright_of_hasScan (s := respond (.word 0) { s with bright := idx }) idx hs
  · cases h
    rfl

/-! ### Transfers -/

/-- With `XMAX = 0` no byte of a chunk is stored (rule R139). -/
theorem keptBytes_of_xmax_zero (bytes : List Byte) {s : State} (h : s.xmax.toNat = 0) : keptBytes bytes s = [] := by
  rw [keptBytes, h, chunkKept, if_neg (Nat.not_lt_zero _), List.take_zero]

/-- Settles O41: nothing is stored, and every length has reached `XMAX = 0`. -/
theorem zeroLengthTransferClearsReady : Obligations.ZeroLengthTransferClearsReady := by
  intro bytes s hlen hzero
  have hxmax : s.xmax.toNat = 0 := congrArg BitVec.toNat hzero
  refine ⟨_, exec_xdata_of_fits s hlen, ?_, fun a => ?_⟩
  · have hreached : s.xmax.toNat ≤ chunkOffset s + bytes.length := by omega
    exact (if_pos hreached).trans hzero
  · rw [respond_sb, keptBytes_of_xmax_zero bytes hxmax]
    rfl

/-! ### A whole transfer -/

/-- Chunk `m` of a payload: its 8 bytes from `8m` on, fewer at its end (`30_encoding.md` rule R81). -/
def chunkAt (bytes : List Byte) (m : Nat) : List Byte := (bytes.drop (8 * m)).take 8

theorem length_chunkAt (bytes : List Byte) (m : Nat) : (chunkAt bytes m).length = min 8 (bytes.length - 8 * m) := by
  rw [chunkAt, List.length_take, List.length_drop]

theorem getElem_chunkAt {bytes : List Byte} {m j : Nat} (hj : j < (chunkAt bytes m).length) :
    (chunkAt bytes m)[j] = bytes[8 * m + j]'(by rw [length_chunkAt] at hj; omega) := by
  simp only [chunkAt, List.getElem_take, List.getElem_drop]

/-- The chunks a payload is cut into, by number. -/
theorem chunksOf_getElem? {fuel : Nat} {bytes : List Byte} {m : Nat} (hfuel : bytes.length ≤ fuel)
    (hm : 8 * m < bytes.length) : (chunksOf fuel bytes)[m]? = some (chunkAt bytes m) := by
  induction fuel generalizing bytes m with
  | zero => omega
  | succ fuel ih =>
    cases bytes with
    | nil => exact absurd hm (Nat.not_lt_zero _)
    | cons b bs =>
      cases m with
      | zero => rfl
      | succ m =>
        have hlen : ((b :: bs).drop chunkSize).length = (b :: bs).length - 8 := List.length_drop
        have hnext : 8 + 8 * m = 8 * (m + 1) := by omega
        rw [chunksOf, List.getElem?_cons_succ, ih (by omega) (by omega), chunkAt, List.drop_drop, hnext, chunkAt]

/-- The words of an `XWRITE`, from its chunk `m` on. -/
theorem drop_xwrite_words {bytes : List Byte} {m : Nat} (hm : 8 * m < bytes.length) :
    (programWords (xwrite bytes)).drop (m + 1) =
      encode (.xdata (chunkAt bytes m)) :: (programWords (xwrite bytes)).drop (m + 2) := by
  have hword : (programWords (xwrite bytes))[m + 1]? = some (encode (.xdata (chunkAt bytes m))) := by
    rw [programWords, xwrite, List.map_cons, List.getElem?_cons_succ, List.getElem?_map, List.getElem?_map,
      chunksOf_getElem? (Nat.le_refl _) hm]
    rfl
  rw [← List.getElem_cons_drop (List.getElem?_eq_some_iff.1 hword).1, (List.getElem?_eq_some_iff.1 hword).2]

/-- The length an `XWRITE` requests, clamped (`42_scratchpad_bridge.md` rule R131). -/
theorem toNat_clamp_length {bytes : List Byte} (h : bytes.length < 2 ^ 16) :
    (clampLength (BitVec.ofNat 16 bytes.length)).toNat = min bytes.length 255 := by
  rw [toNat_clampLength, BitVec.toNat_ofNat, Nat.mod_eq_of_lt h]

/-- After the `XSTART` and `m` chunks of an `XWRITE` presented in `s` with the words `rest` to follow (rule R133). -/
structure Transferring (s : State) (bytes : List Byte) (rest : List PortWord) (m : Nat) (t : State) : Prop where
  micro : t.micro = .idle
  port : t.port = (programWords (xwrite bytes)).drop (m + 1) ++ rest
  digits : SameDigits s t
  wf : Memory.wf t.sb = true
  xmax : t.xmax.toNat = min bytes.length 255
  xcnt : t.xcnt = m
  read : ∀ a : Nat, Memory.read t.sb a =
    if h : a < bytes.length ∧ a < 8 * m ∧ a < 255 then bytes[a]'h.1 else Memory.read s.sb a
  ready : t.ready.toNat = if min bytes.length 255 ≤ 8 * m then min bytes.length 255 else s.ready.toNat

/-- A tick between two events moves no part of the transfer. -/
theorem Transferring.tick {s t : State} {bytes : List Byte} {rest : List PortWord} {m : Nat}
    (h : Transferring s bytes rest m t) (btn : BitVec 5) : Transferring s bytes rest m (tickStep btn (dropTurn t)) := by
  obtain ⟨hmicro, hport, hdigits, hwf, hxmax, hxcnt, hread, hready⟩ := h
  exact ⟨by simpa, by simpa, fun i => by simpa using hdigits i, by simpa, by simpa, by simpa, by simpa,
    by simpa using hready⟩

/-- The `XSTART` begins the transfer: nothing stored, `READY` as it was. -/
theorem Transferring.start {s t u : State} {bytes : List Byte} {rest : List PortWord} (hlen : bytes.length < 2 ^ 16)
    (hpos : 1 ≤ bytes.length) (hmicro : t.micro = .idle) (hport : t.port = programWords (xwrite bytes) ++ rest)
    (hdigits : SameDigits s t) (hsb : t.sb = s.sb) (hready : t.ready = s.ready) (hwf : Memory.wf s.sb = true)
    (hturn : nextTurn t = .foreground) (hstep : step t = .next u) : Transferring s bytes rest 0 u := by
  have hexec := step_eq_exec ⟨hturn, hmicro, hport⟩ (decodeInvertsEncode (.xstart 0 (BitVec.ofNat 16 bytes.length)) rfl)
  cases hstep.symm.trans hexec
  refine ⟨hmicro, rfl, hdigits, hsb ▸ hwf, toNat_clamp_length hlen, rfl, fun a => ?_, ?_⟩
  · rw [dif_neg (by omega)]
    exact congrArg (Memory.read · a) hsb
  · rw [if_neg (by omega)]
    exact congrArg BitVec.toNat hready

/-- The step of a presented `XDATA`: `XdataStoresChunk` at the state with its turn and its word taken. -/
theorem step_xdata {s t : State} {bytes : List Byte} {rest : List PortWord}
    (hpres : Presents s (encode (.xdata bytes)) rest) (hlen : bytes.length ≤ 8) (hwf : Memory.wf s.sb = true)
    (hstep : step s = .next t) :
    (∀ a : Nat, Memory.read t.sb a =
      if h : 8 * s.xcnt ≤ a ∧ a < s.xmax.toNat ∧ a - 8 * s.xcnt < bytes.length then bytes[a - 8 * s.xcnt]'h.2.2
      else Memory.read s.sb a) ∧
    t.xcnt = s.xcnt + 1 ∧ t.xmax = s.xmax ∧
    t.ready = (if 8 * s.xcnt + bytes.length ≥ s.xmax.toNat then s.xmax else s.ready) ∧
    SameDigits s t ∧ t.port = rest ∧ t.micro = s.micro := by
  have hdec : decode (encode (.xdata bytes)) = .instr (.xdata bytes) := decodeInvertsEncode _ (decide_eq_true hlen)
  obtain ⟨u, hu, hread, hxcnt, hxmax, hready, -, -, hdigits, -, -, -, -, ⟨-, -, hport⟩, hmicro⟩ :=
    xdataStoresChunk bytes { dropTurn s with port := rest } hlen hwf
  cases hstep.symm.trans ((step_eq_exec hpres hdec).trans hu)
  exact ⟨hread, hxcnt, hxmax, hready, hdigits, hport, hmicro⟩

/-- Each further event stores its chunk. -/
theorem Transferring.chunk {s t u : State} {bytes : List Byte} {rest : List PortWord} {m : Nat}
    (h : Transferring s bytes rest m t) (hm : 8 * m < bytes.length) (hturn : nextTurn t = .foreground)
    (hstep : step t = .next u) : Transferring s bytes rest (m + 1) u := by
  obtain ⟨hmicro, hport, hdigits, hwf, hxmax, rfl, hread, hready⟩ := h
  rw [drop_xwrite_words hm] at hport
  have hlen := length_chunkAt bytes t.xcnt
  obtain ⟨hread', hxcnt', hxmax', hready', hdigits', hport', hmicro'⟩ :=
    step_xdata ⟨hturn, hmicro, hport⟩ (by omega) hwf hstep
  refine ⟨hmicro'.trans hmicro, hport', fun i => (hdigits' i).trans (hdigits i), step_keeps_wf hstep hwf,
    hxmax' ▸ hxmax, hxcnt', fun a => ?_, ?_⟩
  · rw [hread' a, hread a]
    by_cases hnew : 8 * t.xcnt ≤ a ∧ a < t.xmax.toNat ∧ a - 8 * t.xcnt < (chunkAt bytes t.xcnt).length
    · have hoff : 8 * t.xcnt + (a - 8 * t.xcnt) = a := by omega
      rw [dif_pos hnew, dif_pos (by omega), getElem_chunkAt]
      simp only [hoff]
    · rw [dif_neg hnew]
      by_cases hold : a < bytes.length ∧ a < 8 * t.xcnt ∧ a < 255
      · rw [dif_pos hold, dif_pos (by omega)]
      · rw [dif_neg hold, dif_neg (by omega)]
  · rw [hready', hlen, hxmax]
    by_cases hreach : min bytes.length 255 ≤ 8 * (t.xcnt + 1)
    · rw [if_pos (by omega), if_pos hreach, hxmax]
    · rw [if_neg (by omega), if_neg hreach, hready, if_neg (by omega)]

/-- After `f` foreground turns from a state `s` about to present an `XWRITE`: nothing of it yet, or its `XSTART` and
`f - 1` of its chunks. -/
def TransferAt (s : State) (bytes : List Byte) (rest : List PortWord) : Nat → State → Prop
  | 0, t => t.micro = s.micro ∧ t.port = s.port ∧ SameDigits s t ∧ t.sb = s.sb ∧ t.ready = s.ready
  | m + 1, t => Transferring s bytes rest m t

theorem TransferAt.tick {s t : State} {bytes : List Byte} {rest : List PortWord} {f : Nat}
    (h : TransferAt s bytes rest f t) (btn : BitVec 5) : TransferAt s bytes rest f (tickStep btn (dropTurn t)) := by
  cases f with
  | zero =>
    obtain ⟨hmicro, hport, hdigits, hsb, hready⟩ := h
    exact ⟨by simpa, by simpa, fun i => by simpa using hdigits i, by simpa, by simpa⟩
  | succ m => exact Transferring.tick h btn

/-- Settles O45: the `XSTART` and the chunks one by one, ticks between them moving no part of the transfer. -/
theorem xwriteFillsScratchpad : Obligations.XwriteFillsScratchpad := by
  intro s bytes rest turns more m hmicro hwf hpos hlen hport hsched hm hfore
  have hstep (_n f : Nat) (t u : State) (hf : f < foregroundTurns turns) (hturn : nextTurn t = .foreground)
      (hu : step t = .next u) (h : TransferAt s bytes rest f t) : TransferAt s bytes rest (f + 1) u := by
    cases f with
    | zero =>
      obtain ⟨hmicro', hport', hdigits, hsb, hready⟩ := h
      exact Transferring.start hlen hpos (hmicro'.trans hmicro) (hport'.trans hport) hdigits hsb hready hwf hturn hu
    | succ k => exact Transferring.chunk h (by omega) hturn hu
  obtain ⟨t, hrun, -, hat⟩ := run_counts (fun _ f t => TransferAt s bytes rest f t) hsched
    ⟨rfl, rfl, fun _ => rfl, rfl, rfl⟩ (fun _ _ _ btn _ _ h => h.tick btn) hstep
  rw [hfore] at hat
  obtain ⟨hidle, hport', hdigits, -, hxmax, hxcnt, hread, hready⟩ := hat
  exact ⟨t, hrun, hxmax, hxcnt, hread, hready, hidle, hport', hdigits⟩

end Sys2Proof.Machine
end
